-- ==== Sys2Proof/Config.lean ====
section
/-! DEFINITION. What is fixed for a given block (spec/10_state.md R54): the parameters of spec/00_scope.md R8, one field each,
and the free values. -/

namespace Sys2Proof

/-- `HDR_LEN`, in bytes. -/
abbrev Config.hdrLen : Nat := 5

/-- `MAX_PAYLOAD`, in bytes. -/
abbrev Config.maxPayload : Nat := 255

/-- `MAX_PACKET`, in bytes: the full wire length of the longest packet, and the number of words of the RAW view (R49). -/
abbrev Config.maxPacket : Nat := 260

/-- `RX_CAP` = `MAX_PACKET`, in bytes (R9). Log 11: the register map of R22 fixes it at 260. -/
abbrev Config.rxCap : Nat := 260

/-- `PAY_CAP` = `MAX_PAYLOAD`, in bytes. -/
abbrev Config.payCap : Nat := 255

/-- `REG_WIDTH`, in bits: the width of the bus data. -/
abbrev Config.regWidth : Nat := 32

/-- `ADDR_WIDTH`, in bits: the width of a byte offset on the bus. -/
abbrev Config.addrWidth : Nat := 14

/-- The block occupies offsets 0x0000 to 0x3FFF (R60, R68): those of `ADDR_WIDTH` bits. -/
abbrev Config.windowBytes : Nat := 2 ^ Config.addrWidth

/-- FREE VALUE (R54, R68, U6; log 9). `BASE`, the block's base address on the host bus: a platform parameter left OPEN. -/
opaque Config.base : Nat

/-- `CRC_INIT`. -/
abbrev Config.crcSeed : BitVec 16 := 0xFFFF#16

/-- `CRC_POLY`. -/
abbrev Config.crcPoly : BitVec 16 := 0x1021#16

/-- `TOV_WIDTH`, its two parts, in bits: the seconds and the microseconds of a time of validity. -/
abbrev Config.tovSecWidth : Nat := 32
abbrev Config.tovUsWidth : Nat := 32

/-- FREE VALUE (R48, U3; log 2). The content of `PAY[i]` at power-up, fixed once drawn: two reads agree. -/
opaque Config.payPowerUp : Nat → BitVec 8

/-- FREE VALUE (R47; log 4). The content of `RXBUF[i]` at power-up, where nothing was ever appended at `i`. -/
opaque Config.rxPowerUp : Nat → BitVec 8

/-- FREE VALUE (R47, U2; log 3). The byte drawn by the `n`-th read of an RXBUF word at index `>= RXLEN`. -/
opaque Config.freeByte : Nat → BitVec 8

end Sys2Proof
end

