-- ==== Sys2Proof/Word.lean ====
section
/-! DEFINITION. The word types of the ANPP packet engine (spec/00_scope.md R10): all quantities are unsigned. -/

namespace Sys2Proof

/-- `u8`. -/
abbrev Byte := BitVec 8

/-- `u16`, the width of a CRC. -/
abbrev Half := BitVec 16

/-- `u32`, the width of a register on the bus (`REG_WIDTH`, R8). -/
abbrev Word := BitVec Config.regWidth

end Sys2Proof
end

