-- ==== Sys2Proof/Machine/Checksum.lean ====
section
/-! DEFINITION. The two pure checksum functions (spec/40_checksum.md R100 to R105). They read and write no state (R107). -/

namespace Sys2Proof.Machine

/-- The 8-bit wrapping sum of a byte sequence (R100). -/
def byteSum (bs : List Byte) : Byte := bs.foldl (· + ·) 0

/-- The two's complement of a sum: invert, add 1 (R100, R42). -/
def lrcOfSum (s : Byte) : Byte := ~~~s + 1

/-- `LRC(bs)` (R100). -/
def lrc (bs : List Byte) : Byte := lrcOfSum (byteSum bs)

/-- One bit of the MSB-first table generation (R102). -/
def crcBit (c : Half) : Half := if c.msb then (c <<< 1) ^^^ Config.crcPoly else c <<< 1

/-- `n` bits of it. -/
def crcBits : Nat → Half → Half
  | 0, c => c
  | n + 1, c => crcBits n (crcBit c)

/-- `T[i]` (R102). -/
def crcTable (i : Byte) : Half := crcBits 8 (i.setWidth 16 <<< 8)

/-- `CRCSTEP(crc, b)` (R103). -/
def crcStep (crc : Half) (b : Byte) : Half := (crc <<< 8) ^^^ crcTable ((crc >>> 8).setWidth 8 ^^^ b)

/-- `CRC16(bs)` (R103): seed 0xFFFF, no final XOR. -/
def crc16 (bs : List Byte) : Half := bs.foldl crcStep Config.crcSeed

end Sys2Proof.Machine
end

