-- ==== Sys2Proof/Machine/Bus.lean ====
section
/-! DEFINITION. The host bus: transactions (spec/20_memory.md R60 to R63), the register map (spec/10_state.md R22)
and the command word (spec/30_encoding.md R81, R82). -/

namespace Sys2Proof.Machine

/-- The registers of the map of R22, windows and views of bytes apart. -/
inductive Reg where
  | cmd | arg | status | need | hdr | hcrc | badinfo | expect | rxlen | rxData | pktlen | calcCrc
  | lrcSum | lrcOut | crcAcc | tovSecIn | tovUsIn | tovLatestSec | tovLatestUs | tovSnapSec | tovSnapUs
deriving DecidableEq, Repr

/-- What a mapped offset selects (R22): a register, or the `i`-th word of a byte window. -/
inductive Target where
  | reg (r : Reg)
  | rxbuf (i : Nat)
  | pay (i : Nat)
  | raw (i : Nat)
deriving DecidableEq, Repr

/-- The width of a transaction (R61): a 32-bit size with its four byte enables, or a size of 16 or 8 bits. Log 10. -/
inductive Access where
  | word (byteEnables : BitVec 4)
  | half
  | byte
deriving DecidableEq, Repr

/-- The kind of a transaction (R80); a write carries its data word. -/
inductive Kind where
  | read
  | write (d : Word)
deriving DecidableEq, Repr

/-- One host transaction (R60, R80). `off` is the byte offset from `BASE` (log 9). -/
structure Txn where
  kind : Kind
  access : Access
  off : Nat
deriving DecidableEq, Repr

/-- One transaction as the host puts it on its bus, at an address of the host's own address space (R68). -/
structure HostTxn where
  kind : Kind
  access : Access
  addr : Nat
deriving DecidableEq, Repr

/-- What reaches the block from outside. -/
inductive HostEvent where
  /-- A transaction given by its offset from `BASE`, as the rules name it (R60, R88). -/
  | txn (t : Txn)
  /-- A transaction at an address of the host's address space; the step finds its offset from `BASE` (R68; log 9). -/
  | bus (h : HostTxn)
  /-- The platform's reset input: asserted, and released with recovery over (R210, R212; log 8). -/
  | resetAssert
  | resetRelease
deriving DecidableEq, Repr

/-- The block's answer to a transaction (R63): a write completed, or the word a read returns. Log 7. -/
inductive BusResponse where
  | writeDone
  | readData (w : Word)
deriving DecidableEq, Repr

/-- The two classes of BusError, in the priority order of R195. -/
inductive BusErrorCause where
  | access
  | reserved
deriving DecidableEq, Repr

/-! ## The register map (R22) -/

def Reg.off : Reg → Nat
  | .cmd => 0x000
  | .arg => 0x004
  | .status => 0x008
  | .need => 0x00C
  | .hdr => 0x010
  | .hcrc => 0x014
  | .badinfo => 0x018
  | .expect => 0x01C
  | .rxlen => 0x020
  | .rxData => 0x024
  | .pktlen => 0x028
  | .calcCrc => 0x02C
  | .lrcSum => 0x030
  | .lrcOut => 0x034
  | .crcAcc => 0x038
  | .tovSecIn => 0x040
  | .tovUsIn => 0x044
  | .tovLatestSec => 0x048
  | .tovLatestUs => 0x04C
  | .tovSnapSec => 0x050
  | .tovSnapUs => 0x054

def Reg.all : List Reg :=
  [.cmd, .arg, .status, .need, .hdr, .hcrc, .badinfo, .expect, .rxlen, .rxData, .pktlen, .calcCrc, .lrcSum, .lrcOut,
    .crcAcc, .tovSecIn, .tovUsIn, .tovLatestSec, .tovLatestUs, .tovSnapSec, .tovSnapUs]

/-- The register at an offset, if the map has one there. -/
def regAt (off : Nat) : Option Reg := Reg.all.find? (fun r => r.off == off)

/-- The first offsets of the three byte windows. -/
abbrev rxbufBase : Nat := 0x400
abbrev payBase : Nat := 0x1000
abbrev rawBase : Nat := 0x2000

/-- The offset of a target: windows hold one byte per word (R73). -/
def Target.off : Target → Nat
  | .reg r => r.off
  | .rxbuf i => rxbufBase + 4 * i
  | .pay i => payBase + 4 * i
  | .raw i => rawBase + 4 * i

/-- The target exists in the map: a window index is within its window. -/
def Target.inRange : Target → Bool
  | .reg _ => true
  | .rxbuf i => i < Config.rxCap
  | .pay i => i < Config.payCap
  | .raw i => i < Config.maxPacket

/-- What a 4-byte aligned offset selects; none at a reserved offset (R22, R53). -/
def targetAt (off : Nat) : Option Target :=
  if off < rxbufBase then (regAt off).map .reg
  else if off < rxbufBase + 4 * Config.rxCap then some (.rxbuf ((off - rxbufBase) / 4))
  else if off < payBase then none
  else if off < payBase + 4 * Config.payCap then some (.pay ((off - payBase) / 4))
  else if off < rawBase then none
  else if off < rawBase + 4 * Config.maxPacket then some (.raw ((off - rawBase) / 4))
  else none

/-- A write at this target is ignored (R52): every mapped target with no write operation in R87. -/
def Target.ignoresWrites : Target → Bool
  | .reg .cmd | .reg .arg | .reg .expect | .reg .rxData | .reg .tovSecIn | .reg .tovUsIn | .pay _ => false
  | _ => true

/-! ## Transactions -/

/-- The transaction is a full 32-bit access: size 32 with all four lanes enabled (R61). -/
def Access.full : Access → Bool
  | .word be => be == 0xF#4
  | _ => false

/-- 4-byte alignment (R62). -/
def aligned (off : Nat) : Bool := off % 4 == 0

/-- The offset lies in the block's 16 KiB (R60). -/
def Txn.decoded (t : Txn) : Bool := t.off < Config.windowBytes

/-- The BusError a transaction meets, the first in the order of R195, if any. -/
def Txn.busError (t : Txn) : Option BusErrorCause :=
  if !t.access.full || !aligned t.off then some .access
  else if (targetAt t.off).isNone then some .reserved
  else none

/-- The offset a host address has in a block at base address `base` (R68), if it is one of the block's; `base` is the
platform's parameter `BASE` (R54, D3, U6). -/
def offsetFrom (base addr : Nat) : Option Nat :=
  if base ≤ addr ∧ addr < base + Config.windowBytes then some (addr - base) else none

/-- The transaction a host's transaction is to a block at `base`; none where its address is not the block's (R60, R68). -/
def HostTxn.toTxn (base : Nat) (h : HostTxn) : Option Txn :=
  (offsetFrom base h.addr).map fun off => { kind := h.kind, access := h.access, off := off }

/-- A full aligned read or write of a target. -/
def readTxn (g : Target) : Txn := { kind := .read, access := .word 0xF#4, off := g.off }
def writeTxn (g : Target) (d : Word) : Txn := { kind := .write d, access := .word 0xF#4, off := g.off }

/-- A write of command word `w` to CMD (R23, R81). -/
def cmdTxn (w : Word) : Txn := writeTxn (.reg .cmd) w

/-! ## The command word (R81) -/

/-- `OPC`, bits [7:0]. -/
def cmdOpc (w : Word) : Byte := w.extractLsb' 0 8

/-- `MBZ`, bits [31:8]. -/
def cmdMbz (w : Word) : BitVec 24 := w.extractLsb' 8 24

/-- The OPC values assigned in R82. -/
def assignedOpcodes : List Byte :=
  [0x00, 0x01, 0x02, 0x03, 0x04, 0x08, 0x10, 0x11, 0x12, 0x18, 0x19, 0x20, 0x30, 0x3F]

/-- A word is a legal command when `MBZ = 0` and OPC is assigned (R81). -/
def legalCommand (w : Word) : Bool := cmdMbz w == 0 && assignedOpcodes.contains (cmdOpc w)

end Sys2Proof.Machine
end

