-- ==== Sys2Proof/Syntax.lean ====
section
/-! DEFINITION. The operations of the block: one constructor per row of spec/opcode_table.json (spec/30_encoding.md
R82, R87). Each is exactly one host transaction (R80). -/

namespace Sys2Proof

open Machine (Target Txn)

inductive Instr where
  /-- NOP, CMD word 0x00 (R170). -/
  | nop
  /-- PARSE, CMD word 0x01 (R140). -/
  | parse
  /-- CRC_CHECK, CMD word 0x02 (R145). -/
  | crcCheck
  /-- UPDATE_HEADER, CMD word 0x03 (R148). -/
  | updateHeader
  /-- BUILD, CMD word 0x04 (R150). -/
  | build
  /-- RX_CLEAR, CMD word 0x08 (R135). -/
  | rxClear
  /-- LRC_INIT, CMD word 0x10 (R109). -/
  | lrcInit
  /-- LRC_UPDATE, CMD word 0x11 (R110). -/
  | lrcUpdate
  /-- LRC_UPDATE4, CMD word 0x12 (R111). -/
  | lrcUpdate4
  /-- CRC_INIT, CMD word 0x18 (R113). -/
  | crcInit
  /-- CRC_UPDATE, CMD word 0x19 (R114). -/
  | crcUpdate
  /-- TOV_SET, CMD word 0x20 (R174). -/
  | tovSet
  /-- STATUS_CLEAR, CMD word 0x30 (R175). -/
  | statusClear
  /-- SOFT_RESET, CMD word 0x3F (R176). -/
  | softReset
  /-- `WR ARG, d` (R171). -/
  | wrArg (d : Word)
  /-- `WR EXPECT, d` (R172). -/
  | wrExpect (d : Word)
  /-- `WR RX_DATA, d` (R133). -/
  | wrRxData (d : Word)
  /-- `WR TOV_SEC_IN, d` (R173). -/
  | wrTovSecIn (d : Word)
  /-- `WR TOV_US_IN, d` (R173). -/
  | wrTovUsIn (d : Word)
  /-- `WR PAY[i], d` (R134). -/
  | wrPay (i : Nat) (d : Word)
  /-- `WR CMD, w` of an illegal command word (R84); a legal word is one of the commands above. -/
  | wrCmd (w : Word)
  /-- `RD RAW[i]` (R152). -/
  | rdRaw (i : Nat)
  /-- `RD <reg>` of any mapped target but RAW (R177). -/
  | rdReg (g : Target)
  /-- A write at a mapped target that ignores it (R52). -/
  | wrIgnored (g : Target) (d : Word)
  /-- A transaction the block cannot decode: narrow, misaligned or at a reserved offset (R194). -/
  | busError (t : Txn)
deriving DecidableEq, Repr

end Sys2Proof
end

