-- ==== Sys2Proof/Machine/State.lean ====
section
/-! DEFINITION. The state of the block as plain data (spec/10_state.md), the reasons a step stops, and the state after
reset (spec/70_reset_and_hazards.md R210). -/

namespace Sys2Proof.Machine

/-- STATUS.RESULT (R26). -/
inductive Result where
  | none | ok | needMoreData | badHeader
deriving DecidableEq, Repr

/-- STATUS.BAD_CAUSE (R27). -/
inductive BadCause where
  | none | allZero | lrcMismatch | lenMismatch
deriving DecidableEq, Repr

/-- The fields of STATUS (R25); bits [31:10] hold nothing. Log 13. -/
structure Status where
  result : Result
  badCause : BadCause
  hdrValid : Bool
  pktValid : Bool
  crcDone : Bool
  crcGood : Bool
  ovf : Bool
  cmdErr : Bool
deriving DecidableEq, Repr

/-- The fields of HDR (R33). -/
structure Hdr where
  lrc : Byte
  id : Byte
  len : Byte
deriving DecidableEq, Repr

/-- The fields of BADINFO (R35). -/
structure BadInfo where
  a : Byte
  b : Byte
deriving DecidableEq, Repr

/-- The fields of EXPECT (R36). -/
structure Expect where
  len : Byte
  en : Bool
deriving DecidableEq, Repr

/-- A time of validity: seconds and microseconds (R44 to R46), at the widths of `TOV_WIDTH` (R8). -/
structure Tov where
  sec : BitVec Config.tovSecWidth
  us : BitVec Config.tovUsWidth
deriving DecidableEq, Repr

/-- A byte RAM: the bytes written since power-up, at rising indices. An index not listed was never written and holds a
free value (log 20). -/
abbrev Memory := List Host.Cell

/-- Why the machine stops with a fault. -/
inductive Fault where
  /-- Raised by `busError` and by an access to a target outside the map: the BusError of R194, at this offset, for the
  first cause in the order of R195. Safe: R194 says that a model treats it as a fault. Log 1. -/
  | busError (off : Nat) (cause : BusErrorCause)
  /-- Raised by `fetch` for a transaction at this offset while the reset input is held or recovery is not over (U7).
  Before U13 where the offset is outside the block too: DESIGN CHOICE, log 21. Safe: the run stops. Log 8. -/
  | transactionDuringReset (off : Nat)
deriving DecidableEq, Repr

/-- Why the machine gives a transaction no meaning. -/
inductive Refusal where
  /-- Raised by `exec` for an instruction with no meaning yet. Safe. No arm answers so in this model. -/
  | notModelled (mnemonic : String)
  /-- Raised by `fetch` for an offset outside 0x0000 to 0x3FFF: the block does not decode it and the platform decides
  the outcome (R60); U13 says to refuse it. Safe. Log 9. -/
  | offsetOutside (off : Nat)
  /-- Raised by `fetch` for a host address outside the 16 KiB from `BASE`: not the block's, and the platform decides
  (R60, R68); U13 says to refuse it. Before U7 where reset is held too: DESIGN CHOICE, log 21. Safe. Log 9. -/
  | addressOutside (addr : Nat)
deriving DecidableEq, Repr

structure State where
  /-- ARG (R24). -/
  arg : Word
  /-- STATUS (R25). -/
  status : Status
  /-- NEED[8:0] (R32). -/
  need : BitVec 9
  /-- HDR (R33). -/
  hdr : Hdr
  /-- HCRC[15:0] (R34). -/
  hcrc : Half
  /-- BADINFO (R35). -/
  badinfo : BadInfo
  /-- EXPECT (R36). -/
  expect : Expect
  /-- RXLEN[8:0] (R37). -/
  rxlen : BitVec 9
  /-- CALC_CRC[15:0] (R40). -/
  calcCrc : Half
  /-- LRC_SUM[7:0] (R41). -/
  lrcSum : Byte
  /-- CRC_ACC[15:0] (R43). -/
  crcAcc : Half
  /-- TOV_SEC_IN and TOV_US_IN (R44). -/
  tovIn : Tov
  /-- TOV_LATEST_SEC and TOV_LATEST_US (R45). -/
  tovLatest : Tov
  /-- TOV_SNAP_SEC and TOV_SNAP_US (R46). -/
  tovSnap : Tov
  /-- RXBUF (R47), keyed by index. -/
  rxbuf : Memory
  /-- PAY (R48), keyed by index. -/
  pay : Memory
  /-- The reset input is held, or recovery from it is not over (R212, U7; log 8). -/
  inReset : Bool
  /-- MODEL'S OWN: the host's next events, oldest first (R90; log 6). -/
  pending : List HostEvent
  /-- MODEL'S OWN: the block's answer to the last transaction (R63; log 7). -/
  resp : Option BusResponse
  /-- MODEL'S OWN: how many free bytes reads of RXBUF have drawn (U2; log 5). -/
  draws : Nat
deriving DecidableEq, Repr

/-- The machine right after a hardware reset at power-on has completed (R210, R211): the registers at the values of
R22, nothing written to the RAMs yet, and no transaction issued. -/
def State.reset : State where
  arg := 0
  status :=
    { result := .none, badCause := .none, hdrValid := false, pktValid := false, crcDone := false, crcGood := false,
      ovf := false, cmdErr := false }
  need := 0
  hdr := { lrc := 0, id := 0, len := 0 }
  hcrc := 0
  badinfo := { a := 0, b := 0 }
  expect := { len := 0, en := false }
  rxlen := 0
  calcCrc := 0
  lrcSum := 0
  crcAcc := 0xFFFF#16
  tovIn := { sec := 0, us := 0 }
  tovLatest := { sec := 0, us := 0 }
  tovSnap := { sec := 0, us := 0 }
  rxbuf := []
  pay := []
  inReset := false
  pending := []
  resp := none
  draws := 0

end Sys2Proof.Machine
end

