-- ==== Sys2Proof/Machine/Ops.lean ====
section
/-! DEFINITION. The named operations over memory and registers: the two byte RAMs, the block's answers on the bus,
BusError (spec/60_exceptions.md R194) and reset (spec/70_reset_and_hazards.md R210). -/

namespace Sys2Proof.Machine

abbrev Outcome := Host.Outcome State Fault Refusal

/-! ## Byte RAM -/

/-- The byte written at an index, if one was. -/
def Memory.lookup : Memory → Nat → Option Byte
  | [], _ => none
  | (k, v) :: m, i => if k = i then some v else Memory.lookup m i

/-- Write a byte, keeping the indices rising. -/
def Memory.write : Memory → Nat → Byte → Memory
  | [], i, b => [(i, b)]
  | (k, v) :: m, i, b =>
    if i < k then (i, b) :: (k, v) :: m
    else if i = k then (i, b) :: m
    else (k, v) :: Memory.write m i b

/-- Every index of `m` is above `lo`, and they rise. -/
def Memory.risesFrom : Nat → Memory → Bool
  | _, [] => true
  | lo, (k, _) :: m => lo ≤ k && Memory.risesFrom (k + 1) m

/-- The canonical form of a RAM of `cap` bytes: indices strictly rising, all below `cap`. -/
def Memory.wf (cap : Nat) (m : Memory) : Bool := Memory.risesFrom 0 m && m.all (fun c => c.1 < cap)

/-- `PAY[i]` (R48): the byte last written, else the power-up content (U3; log 2). -/
def payByte (s : State) (i : Nat) : Byte := (s.pay.lookup i).getD (Config.payPowerUp i)

/-- The content of the RXBUF RAM at `i` (R47): the byte last appended there, else the power-up content (log 4). -/
def rxByte (s : State) (i : Nat) : Byte := (s.rxbuf.lookup i).getD (Config.rxPowerUp i)

/-- Write the bytes `bs` at successive indices from `i`. -/
def Memory.writeAll : Memory → Nat → List Byte → Memory
  | m, _, [] => m
  | m, i, b :: bs => Memory.writeAll (m.write i b) (i + 1) bs

/-- `PAY[0..n)`. -/
def payBytes (s : State) (n : Nat) : List Byte := (List.range n).map (payByte s)

/-- `RXBUF[i..i+n)`. -/
def rxBytes (s : State) (i n : Nat) : List Byte := (List.range n).map (fun k => rxByte s (i + k))

/-! ## The block's answer on the bus -/

/-- The write has completed (R63). -/
def State.writeDone (s : State) : State := { s with resp := some .writeDone }

/-- The read returns `w`, having drawn `n` free bytes (R63, U2). -/
def State.readDone (s : State) (w : Word) (n : Nat) : State :=
  { s with resp := some (.readData w), draws := s.draws + n }

/-- A write operation ends: the state is written and the transaction answered. -/
def finishWrite (s : State) : Outcome := .next s.writeDone

/-- `raise BusError(off)` (R12, R194): no state is changed, and the program that issued it stops. -/
def raiseBusError (off : Nat) (cause : BusErrorCause) : Outcome := .fault (.busError off cause)

/-! ## Reset -/

/-- The register reset of R210: every register takes the value of R22. RXBUF and PAY are not reset, and what belongs
to the host and the platform is not the block's to reset. -/
def State.resetRegisters (s : State) : State :=
  { State.reset with
    rxbuf := s.rxbuf, pay := s.pay, inReset := s.inReset, pending := s.pending, resp := s.resp, draws := s.draws }

/-- The platform asserts the reset input (R210): the registers reset, and no transaction may follow until release
(R212, U7; log 8). The last answer on the bus is gone. -/
def State.assertReset (s : State) : State := { s.resetRegisters with inReset := true, resp := none }

/-- Reset is released and recovery is over (R212; log 8). -/
def State.releaseReset (s : State) : State := { s with inReset := false }

end Sys2Proof.Machine
end

