-- ==== Sys2Proof/Machine/Operands.lean ====
section
/-! DEFINITION. The operand forms (spec/30_encoding.md R83), the header record on the wire (spec/20_memory.md R70,
spec/41_envelope.md R130, R151) and the word a read of each target returns (spec/42_control.md R177). -/

namespace Sys2Proof.Machine

/-- Byte `k` of a word, bits `[8k+7:8k]` (R72). -/
def byteOf (w : Word) (k : Nat) : Byte := w.extractLsb' (8 * k) 8

/-- The low and high bytes of a CRC, as they go on the wire (R70). -/
def crcLo (c : Half) : Byte := c.extractLsb' 0 8
def crcHi (c : Half) : Byte := c.extractLsb' 8 8

/-- `zext_32` (R10). -/
def zext {n : Nat} (v : BitVec n) : Word := v.setWidth 32

/-- `ARG[7:0]`, the operand of LRC_UPDATE and CRC_UPDATE and the packetId of BUILD (R24, R83). -/
def argByte (s : State) : Byte := byteOf s.arg 0

/-- `ARG[15:8]`, the packetDataLen of BUILD (R24, R83). -/
def argLen (s : State) : Byte := byteOf s.arg 1

/-- The four bytes of ARG, the operands of LRC_UPDATE4 (R24, R83). -/
def argBytes (s : State) : List Byte := [byteOf s.arg 0, byteOf s.arg 1, byteOf s.arg 2, byteOf s.arg 3]

/-- The EXPECT fields of a data word (R172); `d[31:9]` is ignored. -/
def expectOf (d : Word) : Expect := { len := byteOf d 0, en := d.getLsbD 8 }

/-- Five header bytes, in wire order (R70, R130). -/
structure Wire where
  b0 : Byte
  b1 : Byte
  b2 : Byte
  b3 : Byte
  b4 : Byte
deriving DecidableEq, Repr

/-- The header bytes of the receive window, `RXBUF[0..5)`. -/
def rxWire (s : State) : Wire :=
  { b0 := rxByte s 0, b1 := rxByte s 1, b2 := rxByte s 2, b3 := rxByte s 3, b4 := rxByte s 4 }

/-- HDR and HCRC of five wire bytes (R130). -/
def hdrOfWire (w : Wire) : Hdr := { lrc := w.b0, id := w.b1, len := w.b2 }
def hcrcOfWire (w : Wire) : Half := w.b4 ++ w.b3

/-- The wire bytes of the header record (R70, R151). -/
def wireOf (h : Hdr) (c : Half) : Wire := { b0 := h.lrc, b1 := h.id, b2 := h.len, b3 := crcLo c, b4 := crcHi c }

/-- The LRC of the four header bytes after the first (R131, R137). -/
def wireLrc (w : Wire) : Byte := lrc [w.b1, w.b2, w.b3, w.b4]

/-- The full packet length of the header record, `5 + HDR.LEN` (R39, R132). -/
def pktLen (s : State) : Nat := Config.hdrLen + s.hdr.len.toNat

/-- `PAY[0..HDR.LEN)`, the packet's payload. -/
def payload (s : State) : List Byte := payBytes s s.hdr.len.toNat

/-- `RAW(i)` (R151). -/
def rawByte (s : State) (i : Nat) : Byte :=
  match i with
  | 0 => s.hdr.lrc
  | 1 => s.hdr.id
  | 2 => s.hdr.len
  | 3 => crcLo s.hcrc
  | 4 => crcHi s.hcrc
  | k + 5 => if k < s.hdr.len.toNat then payByte s k else 0

/-- The code of a parse outcome (R26). -/
def Result.code : Result → BitVec 2
  | .none => 0
  | .ok => 1
  | .needMoreData => 2
  | .badHeader => 3

/-- The code of a BadHeader cause (R27). -/
def BadCause.code : BadCause → BitVec 2
  | .none => 0
  | .allZero => 1
  | .lrcMismatch => 2
  | .lenMismatch => 3

/-- The STATUS word (R25), its highest field first. -/
def statusWord (t : Status) : Word :=
  0#22 ++ BitVec.ofBool t.cmdErr ++ BitVec.ofBool t.ovf ++ BitVec.ofBool t.crcGood ++ BitVec.ofBool t.crcDone
    ++ BitVec.ofBool t.pktValid ++ BitVec.ofBool t.hdrValid ++ t.badCause.code ++ t.result.code

/-- The word a read of a register returns (R23 to R46, R52): reserved bits and write-only registers read 0. -/
def regWord (s : State) : Reg → Word
  | .cmd => 0
  | .arg => s.arg
  | .status => statusWord s.status
  | .need => zext s.need
  | .hdr => 0#8 ++ s.hdr.len ++ s.hdr.id ++ s.hdr.lrc
  | .hcrc => zext s.hcrc
  | .badinfo => 0#16 ++ s.badinfo.b ++ s.badinfo.a
  | .expect => 0#23 ++ BitVec.ofBool s.expect.en ++ s.expect.len
  | .rxlen => zext s.rxlen
  | .rxData => 0
  | .pktlen => BitVec.ofNat 32 (pktLen s)
  | .calcCrc => zext s.calcCrc
  | .lrcSum => zext s.lrcSum
  | .lrcOut => zext (lrcOfSum s.lrcSum)
  | .crcAcc => zext s.crcAcc
  | .tovSecIn => s.tovIn.sec
  | .tovUsIn => s.tovIn.us
  | .tovLatestSec => s.tovLatest.sec
  | .tovLatestUs => s.tovLatest.us
  | .tovSnapSec => s.tovSnap.sec
  | .tovSnapUs => s.tovSnap.us

/-- A read of this target draws a free byte: an RXBUF word at index `>= RXLEN` (R47, U2; log 3). -/
def drawsByte (s : State) : Target → Bool
  | .rxbuf i => s.rxlen.toNat ≤ i
  | _ => false

/-- The word a read of a mapped target returns (R177). -/
def targetWord (s : State) : Target → Word
  | .reg r => regWord s r
  | .rxbuf i => if s.rxlen.toNat ≤ i then zext (Config.freeByte s.draws) else zext (rxByte s i)
  | .pay i => zext (payByte s i)
  | .raw i => zext (rawByte s i)

/-- `BusRead` of a target (R63): its word is returned; a window index outside the map is a reserved offset (R53). -/
def busRead (s : State) (g : Target) : Outcome :=
  if g.inRange then .next (s.readDone (targetWord s g) (if drawsByte s g then 1 else 0))
  else raiseBusError g.off .reserved

end Sys2Proof.Machine
end

