-- ==== Sys2Proof/Machine/Flags.lean ====
section
/-! DEFINITION. The flag rules of STATUS (spec/10_state.md R25 to R31) and the tests that decide a parse
(spec/41_envelope.md R136 to R138). -/

namespace Sys2Proof.Machine

/-- Clear CRC_DONE and CRC_GOOD (R30). -/
def Status.clearCrc (t : Status) : Status := { t with crcDone := false, crcGood := false }

/-- Record the result of a CRC_CHECK (R30, R145). -/
def Status.setCrc (t : Status) (good : Bool) : Status := { t with crcDone := true, crcGood := good }

/-- Record a parse outcome (R26 to R29). -/
def Status.setOutcome (t : Status) (r : Result) (c : BadCause) (hdrValid pktValid : Bool) : Status :=
  { t with result := r, badCause := c, hdrValid := hdrValid, pktValid := pktValid }

/-- Clear the sticky flags (R31, R175). -/
def Status.clearSticky (t : Status) : Status := { t with ovf := false, cmdErr := false }

/-- `ALLZERO(b)` (R136, C1): an exact integer sum, with no wraparound. -/
def allZero (w : Wire) : Bool := w.b0.toNat + w.b1.toNat + w.b2.toNat + w.b3.toNat + w.b4.toNat == 0

/-- `LRCOK(b)` (R137). -/
def lrcOk (w : Wire) : Bool := wireLrc w == w.b0

/-- A valid header (R131). -/
def validHeader (w : Wire) : Bool := lrcOk w && !allZero w

/-- The outcomes of PARSE (R138), with what each reports (R190). -/
inductive ParseOutcome where
  | shortHeader (need : Nat)
  | allZero
  | lrcMismatch
  | shortPayload (need : Nat)
  | lenMismatch
  | ok
deriving DecidableEq, Repr

/-- The outcome of a parse of `n` bytes whose header is `w`: the first of these tests that applies (R138). -/
def parseOutcome (n : Nat) (w : Wire) (e : Expect) : ParseOutcome :=
  if n < Config.hdrLen then .shortHeader (Config.hdrLen - n)
  else if allZero w then .allZero
  else if !lrcOk w then .lrcMismatch
  else if n < Config.hdrLen + w.b2.toNat then .shortPayload (Config.hdrLen + w.b2.toNat - n)
  else if e.en && w.b2 != e.len then .lenMismatch
  else .ok

end Sys2Proof.Machine
end

