-- ==== Sys2Proof/Machine/Control.lean ====
section
/-! DEFINITION. The control, operand and time-of-validity operations (spec/42_control.md) and the illegal command
word (spec/30_encoding.md R84). -/

namespace Sys2Proof.Machine

/-- `NOP` (R170). -/
def execNop (s : State) : Outcome := finishWrite s

/-- `WR ARG` (R171). -/
def execWrArg (d : Word) (s : State) : Outcome := finishWrite { s with arg := d }

/-- `WR EXPECT` (R172). -/
def execWrExpect (d : Word) (s : State) : Outcome := finishWrite { s with expect := expectOf d }

/-- `WR TOV_SEC_IN` (R173). -/
def execWrTovSecIn (d : Word) (s : State) : Outcome := finishWrite { s with tovIn := { s.tovIn with sec := d } }

/-- `WR TOV_US_IN` (R173). -/
def execWrTovUsIn (d : Word) (s : State) : Outcome := finishWrite { s with tovIn := { s.tovIn with us := d } }

/-- `TOV_SET` (R174): both words in one step, with no range check. -/
def execTovSet (s : State) : Outcome := finishWrite { s with tovLatest := s.tovIn }

/-- `STATUS_CLEAR` (R175). -/
def execStatusClear (s : State) : Outcome := finishWrite { s with status := s.status.clearSticky }

/-- `SOFT_RESET` (R176): the register reset of R210. -/
def execSoftReset (s : State) : Outcome := finishWrite s.resetRegisters

/-- `WR CMD` of an illegal word (R84): CMD_ERR is set and nothing else happens. The decoder gives a legal word its own
command, so `w` is illegal in every well-formed term (log 17). -/
def execWrCmd (_w : Word) (s : State) : Outcome := finishWrite { s with status := { s.status with cmdErr := true } }

end Sys2Proof.Machine
end

