-- ==== Sys2Proof/Machine/Engines.lean ====
section
/-! DEFINITION. The stand-alone LRC and CRC engines (spec/40_checksum.md R108 to R115). They touch no state of the
envelope (R107) and no flag. -/

namespace Sys2Proof.Machine

/-- `LRC_INIT` (R109). -/
def execLrcInit (s : State) : Outcome := finishWrite { s with lrcSum := 0 }

/-- `LRC_UPDATE` (R110). -/
def execLrcUpdate (s : State) : Outcome := finishWrite { s with lrcSum := s.lrcSum + argByte s }

/-- `LRC_UPDATE4` (R111): the four bytes of ARG are added. -/
def execLrcUpdate4 (s : State) : Outcome := finishWrite { s with lrcSum := s.lrcSum + byteSum (argBytes s) }

/-- `CRC_INIT` (R113). -/
def execCrcInit (s : State) : Outcome := finishWrite { s with crcAcc := Config.crcSeed }

/-- `CRC_UPDATE` (R114). -/
def execCrcUpdate (s : State) : Outcome := finishWrite { s with crcAcc := crcStep s.crcAcc (argByte s) }

end Sys2Proof.Machine
end

