-- ==== Sys2Proof/Machine/Envelope.lean ====
section
/-! DEFINITION. The packet envelope (spec/41_envelope.md): the window writes, PARSE, CRC_CHECK, UPDATE_HEADER and BUILD. -/

namespace Sys2Proof.Machine

/-! ## The receive window and the payload buffer -/

/-- Append a byte to the receive window, or set OVF when it is full (R133). -/
def State.appendByte (s : State) (b : Byte) : State :=
  if s.rxlen.toNat < Config.rxCap then { s with rxbuf := s.rxbuf.write s.rxlen.toNat b, rxlen := s.rxlen + 1 }
  else { s with status := { s.status with ovf := true } }

/-- `WR RX_DATA` (R133): it uses `d[7:0]`. -/
def execWrRxData (d : Word) (s : State) : Outcome := finishWrite (s.appendByte (byteOf d 0))

/-- Store a payload byte and drop the CRC result (R134). -/
def State.storePay (s : State) (i : Nat) (b : Byte) : State :=
  { s with pay := s.pay.write i b, status := s.status.clearCrc }

/-- `WR PAY[i]` (R134): it uses `d[7:0]`. An index past the buffer is a reserved offset (R53). -/
def execWrPay (i : Nat) (d : Word) (s : State) : Outcome :=
  if i < Config.payCap then finishWrite (s.storePay i (byteOf d 0))
  else raiseBusError (Target.pay i).off .reserved

/-- `RX_CLEAR` (R135): the bytes stay in the RAM. -/
def execRxClear (s : State) : Outcome := finishWrite { s with rxlen := 0 }

/-! ## PARSE -/

/-- Write a parse outcome with its diagnostics; the CRC result is dropped (R140). -/
def State.recordOutcome (s : State) (r : Result) (c : BadCause) (hdrValid pktValid : Bool) (need : Nat) (a b : Byte) :
    State :=
  { s with
    status := (s.status.setOutcome r c hdrValid pktValid).clearCrc
    need := BitVec.ofNat 9 need
    badinfo := { a := a, b := b } }

/-- Copy five wire bytes into the header record (R130). -/
def State.loadHeader (s : State) (w : Wire) : State := { s with hdr := hdrOfWire w, hcrc := hcrcOfWire w }

/-- `TOV_SNAP <- TOV_LATEST` (R139, R46). -/
def State.takeSnapshot (s : State) : State := { s with tovSnap := s.tovLatest }

/-- `PAY[k] <- RXBUF[5 + k]` for `k` from 0 to `n - 1` (R140). -/
def State.copyPayload (s : State) (n : Nat) : State :=
  { s with pay := s.pay.writeAll 0 (rxBytes s Config.hdrLen n) }

/-- The effect of each parse outcome, for the header bytes `w` (R140). -/
def State.parseEffect (s : State) (w : Wire) : ParseOutcome → State
  | .shortHeader need => s.recordOutcome .needMoreData .none false false need 0 0
  | .allZero => s.recordOutcome .badHeader .allZero false false 0 0 0
  | .lrcMismatch => (s.loadHeader w).recordOutcome .badHeader .lrcMismatch false false 0 w.b0 (wireLrc w)
  | .shortPayload need => (s.loadHeader w).takeSnapshot.recordOutcome .needMoreData .none true false need 0 0
  | .lenMismatch =>
    ((s.loadHeader w).takeSnapshot.copyPayload w.b2.toNat).recordOutcome .badHeader .lenMismatch true false 0 w.b2
      s.expect.len
  | .ok => ((s.loadHeader w).takeSnapshot.copyPayload w.b2.toNat).recordOutcome .ok .none true true 0 0 0

/-- What a parse of the receive window decides (R138). -/
def State.parseDecision (s : State) : ParseOutcome := parseOutcome s.rxlen.toNat (rxWire s) s.expect

/-- `PARSE` (R140). -/
def execParse (s : State) : Outcome := finishWrite (s.parseEffect (rxWire s) s.parseDecision)

/-! ## The payload check and the outbound header -/

/-- `CRC_CHECK` (R145). -/
def execCrcCheck (s : State) : Outcome :=
  finishWrite { s with calcCrc := crc16 (payload s), status := s.status.setCrc (crc16 (payload s) == s.hcrc) }

/-- The header record completed over a CRC: the CRC first, then the LRC over it (R148). -/
def State.completeHeader (s : State) (c : Half) : State :=
  { s with
    hcrc := c
    hdr := { s.hdr with lrc := lrc [s.hdr.id, s.hdr.len, crcLo c, crcHi c] }
    status := s.status.clearCrc }

/-- `UPDATE_HEADER` (R148). -/
def execUpdateHeader (s : State) : Outcome := finishWrite (s.completeHeader (crc16 (payload s)))

/-- `BUILD` (R150): packetId and packetDataLen are the low bytes of ARG. -/
def execBuild (s : State) : Outcome :=
  finishWrite
    (({ s with hdr := { lrc := 0, id := argByte s, len := argLen s }, hcrc := 0 } : State).takeSnapshot.recordOutcome
      .none .none true true 0 0 0)

end Sys2Proof.Machine
end

