-- ==== Sys2Proof/Machine/Reads.lean ====
section
/-! DEFINITION. The remaining BUS rows: reads (spec/42_control.md R177, spec/41_envelope.md R152), ignored writes
(spec/10_state.md R52) and BusError (spec/60_exceptions.md R194). -/

namespace Sys2Proof.Machine

/-- `RD <reg>` (R177). -/
def execRdReg (g : Target) (s : State) : Outcome := busRead s g

/-- `RD RAW[i]` (R152). -/
def execRdRaw (i : Nat) (s : State) : Outcome := busRead s (.raw i)

/-- A write at a mapped target that ignores it (R52); a window index outside the map is a reserved offset (R53). -/
def execWrIgnored (g : Target) (_d : Word) (s : State) : Outcome :=
  if g.inRange then finishWrite s else raiseBusError g.off .reserved

/-- A transaction the block cannot decode (R194). Its cause is the first in the order of R195. -/
def execBusError (t : Txn) (_s : State) : Outcome :=
  raiseBusError t.off (t.busError.getD .reserved)

end Sys2Proof.Machine
end

