-- ==== Sys2Proof/Machine/Dispatch.lean ====
section
/-! DEFINITION. The meaning of each operation, one arm per constructor of Instr. -/

namespace Sys2Proof.Machine

def exec (i : Instr) (s : State) : Host.Outcome State Fault Refusal :=
  match i with
  | .nop => Sys2Proof.Machine.execNop s
  | .parse => Sys2Proof.Machine.execParse s
  | .crcCheck => Sys2Proof.Machine.execCrcCheck s
  | .updateHeader => Sys2Proof.Machine.execUpdateHeader s
  | .build => Sys2Proof.Machine.execBuild s
  | .rxClear => Sys2Proof.Machine.execRxClear s
  | .lrcInit => Sys2Proof.Machine.execLrcInit s
  | .lrcUpdate => Sys2Proof.Machine.execLrcUpdate s
  | .lrcUpdate4 => Sys2Proof.Machine.execLrcUpdate4 s
  | .crcInit => Sys2Proof.Machine.execCrcInit s
  | .crcUpdate => Sys2Proof.Machine.execCrcUpdate s
  | .tovSet => Sys2Proof.Machine.execTovSet s
  | .statusClear => Sys2Proof.Machine.execStatusClear s
  | .softReset => Sys2Proof.Machine.execSoftReset s
  | .wrArg d => Sys2Proof.Machine.execWrArg d s
  | .wrExpect d => Sys2Proof.Machine.execWrExpect d s
  | .wrRxData d => Sys2Proof.Machine.execWrRxData d s
  | .wrTovSecIn d => Sys2Proof.Machine.execWrTovSecIn d s
  | .wrTovUsIn d => Sys2Proof.Machine.execWrTovUsIn d s
  | .wrPay k d => Sys2Proof.Machine.execWrPay k d s
  | .wrCmd w => Sys2Proof.Machine.execWrCmd w s
  | .rdRaw k => Sys2Proof.Machine.execRdRaw k s
  | .rdReg g => Sys2Proof.Machine.execRdReg g s
  | .wrIgnored g d => Sys2Proof.Machine.execWrIgnored g d s
  | .busError t => Sys2Proof.Machine.execBusError t s

end Sys2Proof.Machine
end

