-- ==== Sys2Proof/WellFormed.lean ====
section
/-! DEFINITION. Which terms of Instr are operations of spec/opcode_table.json: the conditions of its match and mask
columns on the operands. -/

namespace Sys2Proof

open Machine

/-- The target is readable by `RD <reg>`: mapped, and not a RAW word, whose read is the row `RD RAW[i]` (R152, R177). -/
def readableReg : Target → Bool
  | .raw _ => false
  | g => g.inRange

def Instr.wf : Instr → Bool
  | .wrPay i _ => i < Config.payCap
  | .wrCmd w => !legalCommand w
  | .rdRaw i => i < Config.maxPacket
  | .rdReg g => readableReg g
  | .wrIgnored g _ => g.inRange && g.ignoresWrites
  | .busError t => t.decoded && t.busError.isSome
  | .nop | .parse | .crcCheck | .updateHeader | .build | .rxClear | .lrcInit | .lrcUpdate | .lrcUpdate4 | .crcInit
  | .crcUpdate | .tovSet | .statusClear | .softReset | .wrArg _ | .wrExpect _ | .wrRxData _ | .wrTovSecIn _
  | .wrTovUsIn _ => true

end Sys2Proof
end

