-- ==== Sys2Proof/Decode.lean ====
section
/-! DEFINITION. From a host transaction to the operation it selects, and back (spec/30_encoding.md R80 to R87). The
decoder is total: it rejects, by name, only an offset that is outside the block. -/

namespace Sys2Proof

open Machine

/-- Why a transaction is not decoded by the block. -/
inductive DecodeError where
  /-- The offset is outside 0x0000 to 0x3FFF (R60, U13). -/
  | offsetOutside (off : Nat)
deriving DecidableEq, Repr

/-- The operation of a CMD word (R81, R82); any unlisted word is illegal (R84). -/
def decodeCommand (w : Word) : Instr :=
  if cmdMbz w ≠ 0 then .wrCmd w
  else
    match (cmdOpc w).toNat with
    | 0x00 => .nop
    | 0x01 => .parse
    | 0x02 => .crcCheck
    | 0x03 => .updateHeader
    | 0x04 => .build
    | 0x08 => .rxClear
    | 0x10 => .lrcInit
    | 0x11 => .lrcUpdate
    | 0x12 => .lrcUpdate4
    | 0x18 => .crcInit
    | 0x19 => .crcUpdate
    | 0x20 => .tovSet
    | 0x30 => .statusClear
    | 0x3F => .softReset
    | _ => .wrCmd w

/-- The operation of a full aligned read of a mapped target (R87). -/
def decodeRead : Target → Instr
  | .raw i => .rdRaw i
  | g => .rdReg g

/-- The operation of a full aligned write at a mapped target, selected by its offset alone (R80, R87). -/
def decodeWrite (d : Word) : Target → Instr
  | .reg .cmd => decodeCommand d
  | .reg .arg => .wrArg d
  | .reg .expect => .wrExpect d
  | .reg .rxData => .wrRxData d
  | .reg .tovSecIn => .wrTovSecIn d
  | .reg .tovUsIn => .wrTovUsIn d
  | .pay i => .wrPay i d
  | g => .wrIgnored g d

/-- The decoder, in the order of R195: width or alignment, then a reserved offset, then the operation. -/
def decode (t : Txn) : Except DecodeError Instr :=
  if !t.decoded then .error (.offsetOutside t.off)
  else if !t.access.full || !aligned t.off then .ok (.busError t)
  else
    match targetAt t.off with
    | none => .ok (.busError t)
    | some g =>
      match t.kind with
      | .read => .ok (decodeRead g)
      | .write d => .ok (decodeWrite d g)

/-- The transaction of an operation (R82, R87). -/
def encode : Instr → Txn
  | .nop => cmdTxn 0x00#32
  | .parse => cmdTxn 0x01#32
  | .crcCheck => cmdTxn 0x02#32
  | .updateHeader => cmdTxn 0x03#32
  | .build => cmdTxn 0x04#32
  | .rxClear => cmdTxn 0x08#32
  | .lrcInit => cmdTxn 0x10#32
  | .lrcUpdate => cmdTxn 0x11#32
  | .lrcUpdate4 => cmdTxn 0x12#32
  | .crcInit => cmdTxn 0x18#32
  | .crcUpdate => cmdTxn 0x19#32
  | .tovSet => cmdTxn 0x20#32
  | .statusClear => cmdTxn 0x30#32
  | .softReset => cmdTxn 0x3F#32
  | .wrArg d => writeTxn (.reg .arg) d
  | .wrExpect d => writeTxn (.reg .expect) d
  | .wrRxData d => writeTxn (.reg .rxData) d
  | .wrTovSecIn d => writeTxn (.reg .tovSecIn) d
  | .wrTovUsIn d => writeTxn (.reg .tovUsIn) d
  | .wrPay i d => writeTxn (.pay i) d
  | .wrCmd w => cmdTxn w
  | .rdRaw i => readTxn (.raw i)
  | .rdReg g => readTxn g
  | .wrIgnored g d => writeTxn g d
  | .busError t => t

/-- The transaction that spec/opcode_table.json's numbering gives `nbits` bits of value `w`: its CMD rows number the
data word of a full aligned write to offset 0x000 (R81), and a word holds 32 bits. Log 14. -/
def tableTxn (nbits w : Nat) : Option Txn :=
  if w % 2 ^ nbits < 2 ^ 32 then some (cmdTxn (BitVec.ofNat 32 (w % 2 ^ nbits))) else none

/-- What the decoder reads from a word of spec/opcode_table.json. -/
def decodeTableWord (nbits w : Nat) : Option Instr :=
  match tableTxn nbits w with
  | none => none
  | some t => (decode t).toOption

end Sys2Proof
end

