-- ==== Sys2Proof/Machine/Fetch.lean ====
section
/-! DEFINITION. Taking the host's next event: the block fetches no instructions (spec/10_state.md R21) and performs one
operation per host transaction, in the order the host issues them (spec/20_memory.md R66). -/

namespace Sys2Proof.Machine

/-- Decode a transaction the host has issued: during reset or recovery it is outside the model (U7; log 8), and an
offset outside the block is refused (U13; log 9). DESIGN CHOICE (log 21): for a transaction
that is both, the spec gives no order; reset comes first here, so it faults. -/
def fetchTxn (t : Txn) (s : State) : Host.Outcome (Option Instr × State) Fault Refusal :=
  if s.inReset then .fault (.transactionDuringReset t.off)
  else
    match decode t with
    | .error (.offsetOutside off) => .refused (.offsetOutside off)
    | .ok i => .next (some i, s)

/-- Take a host's transaction by its address: it is the one at its offset from `base`, and an address that is not the
block's is refused (R60, R68, U13; log 9). DESIGN CHOICE (log 21): during reset U7 names a
fault, and the spec gives no order; the address comes first here, so it is refused. -/
def fetchBus (base : Nat) (h : HostTxn) (s : State) : Host.Outcome (Option Instr × State) Fault Refusal :=
  match h.toTxn base with
  | none => .refused (.addressOutside h.addr)
  | some t => fetchTxn t s

/-- Take the next event, in a block at `base` (R54): a transaction gives the operation to perform. With none
the block waits (R212; log 15), and the reset input acts at once (R210; log 8). -/
def fetch (base : Nat) (s : State) : Host.Outcome (Option Instr × State) Fault Refusal :=
  match s.pending with
  | [] => .next (none, s)
  | .resetAssert :: rest => .next (none, ({ s with pending := rest } : State).assertReset)
  | .resetRelease :: rest => .next (none, ({ s with pending := rest } : State).releaseReset)
  | .txn t :: rest => fetchTxn t { s with pending := rest }
  | .bus h :: rest => fetchBus base h { s with pending := rest }

/-- The host issues transaction `t` ahead of its pending events (log 6), to a block that is put out of reset (log 8). -/
def State.issueNext (s : State) (t : Txn) : State := { s with pending := .txn t :: s.pending, inReset := false }

end Sys2Proof.Machine
end

