-- ==== Sys2Proof/Machine/Step.lean ====
section
/-! DEFINITION. One step of the machine: the next event is taken, and an operation runs whole (spec/70_reset_and_hazards.md
R214). The base address of the block is a parameter of the step (spec/10_state.md R54). -/

namespace Sys2Proof.Machine

/-- One step of a block at base address `base` (R54, R68). -/
def stepAt (base : Nat) (s : State) : Host.Outcome State Fault Refusal :=
  match fetch base s with
  | .next (some i, s') => exec i s'
  | .next (none, s') => .next s'
  | .fault f => .fault f
  | .refused r => .refused r

/-- One step of the block where the platform has placed it (U6; log 9). -/
def step (s : State) : Host.Outcome State Fault Refusal := stepAt Config.base s

/-- The state in which the next transaction is the one spec/opcode_table.json's numbering gives (log 14): it is what the
host issues next (log 6). -/
def State.withFetchWord (s : State) (nbits w : Nat) : State :=
  match tableTxn nbits w with
  | none => s
  | some t => s.issueNext t

end Sys2Proof.Machine
end

