-- ==== Sys2Proof/Machine/Script.lean ====
section
/-! DEFINITION. The host script (spec/30_encoding.md R88 to R90): its lines, the transactions each expands to, and the
program a script is. It is the host's notation: the block only sees the transactions. -/

namespace Sys2Proof.Machine

/-- One line of a host script: a transaction (R88) or a pseudo-operation (R89). `CMD <mnemonic>` names its command. -/
inductive Line where
  | wr (off : Nat) (d : Word)
  | rd (off : Nat)
  | cmd (i : Instr)
  | push (bs : List Byte)
  | lrcb (b : Byte)
  | lrc4 (b0 b1 b2 b3 : Byte)
  | crcb (b : Byte)
  | buildp (id len : Byte)
  | settov (s us : Word)
  | expectlen (n : Byte)
  | noexpect
  | wrpay (i : Nat) (bs : List Byte)
deriving DecidableEq, Repr

/-- `WR PAY[i], b0`, `WR PAY[i+1], b1`, … -/
def payWrites : Nat → List Byte → List Txn
  | _, [] => []
  | i, b :: bs => writeTxn (.pay i) (zext b) :: payWrites (i + 1) bs

/-- The transactions of a line, in order (R88, R89). -/
def expand : Line → List Txn
  | .wr off d => [{ kind := .write d, access := .word 0xF#4, off := off }]
  | .rd off => [{ kind := .read, access := .word 0xF#4, off := off }]
  | .cmd i => [encode i]
  | .push bs => bs.map (fun b => writeTxn (.reg .rxData) (zext b))
  | .lrcb b => [writeTxn (.reg .arg) (zext b), encode .lrcUpdate]
  | .lrc4 b0 b1 b2 b3 => [writeTxn (.reg .arg) (b3 ++ b2 ++ b1 ++ b0), encode .lrcUpdate4]
  | .crcb b => [writeTxn (.reg .arg) (zext b), encode .crcUpdate]
  | .buildp id len => [writeTxn (.reg .arg) (0#16 ++ len ++ id), encode .build]
  | .settov s us => [writeTxn (.reg .tovSecIn) s, writeTxn (.reg .tovUsIn) us, encode .tovSet]
  | .expectlen n => [writeTxn (.reg .expect) (0#23 ++ 1#1 ++ n)]
  | .noexpect => [writeTxn (.reg .expect) 0]
  | .wrpay i bs => payWrites i bs

/-- A program is a finite sequence of lines; its meaning is the sequence of their transactions (R90). -/
def program (ls : List Line) : List HostEvent := (ls.flatMap expand).map .txn

/-- The host is to issue a program, after what it is already to issue (log 6). -/
def State.load (s : State) (ls : List Line) : State := { s with pending := s.pending ++ program ls }

end Sys2Proof.Machine
end

