-- ==== Sys2Proof/Safety.lean ====
section
/-! DEFINITION. What the claims are said in: runs of operations, the answer of a read, the run a host may trust, and the
invariants of the block (spec/10_state.md R25 to R37, R47, R48). -/

namespace Sys2Proof.Machine

/-- The operations `is` performed in order, each on the state the one before it left (R66, R90). -/
def execAll : List Instr → State → Outcome
  | [], s => .next s
  | i :: is, s =>
    match exec i s with
    | .next t => execAll is t
    | .fault f => .fault f
    | .refused r => .refused r

/-- In state `s` the read `i` completes, the host reads the word `w`, and nothing else of the block changes (R64): only
the model's own record of the answer and of the free bytes drawn (logs 5, 7). -/
def readsWord (i : Instr) (s : State) (w : Word) : Prop :=
  ∃ n, exec i s = .next { s with resp := some (.readData w), draws := n }

/-- A full 32-bit transaction at offset `off` (R60). -/
def fullRead (off : Nat) : Txn := { kind := .read, access := .word 0xF#4, off := off }
def fullWrite (off : Nat) (d : Word) : Txn := { kind := .write d, access := .word 0xF#4, off := off }

/-- The map of R22 as offset ranges, apart from the decoder's own table. -/
def mappedOffset (off : Nat) : Prop :=
  off % 4 = 0 ∧ (off ≤ 0x038 ∨ (0x040 ≤ off ∧ off ≤ 0x054) ∨ (0x400 ≤ off ∧ off ≤ 0x80C) ∨
    (0x1000 ≤ off ∧ off ≤ 0x13F8) ∨ (0x2000 ≤ off ∧ off ≤ 0x240C))

/-- The command word `w` selects the operation `i` (R81, R82). -/
abbrev commandWord (w : Word) (i : Instr) : Prop := decode (fullWrite 0x000 w) = .ok i

/-- A step that is safe: it does not stop with a fault or a refusal. -/
def safeStep (s : State) : Prop := ∃ t, step s = .next t

/-- From `s`, out of reset, the host issues the lines `ls` and nothing stops the machine until they are done, in `t`;
`rest` is what the host issues after them (R90). -/
def performs (s : State) (ls : List Line) (rest : List HostEvent) (t : State) : Prop :=
  core.run (program ls).length { s with pending := program ls ++ rest } = .next t ∧ t.pending = rest

/-! ## Invariants -/

/-- Both RAMs are in their canonical form. -/
def ramsCanonical (s : State) : Prop :=
  Memory.wf Config.rxCap s.rxbuf = true ∧ Memory.wf Config.payCap s.pay = true

/-- RXLEN is at most RX_CAP (R37), and every byte below it has been appended (R47). -/
def windowBacked (s : State) : Prop :=
  s.rxlen.toNat ≤ Config.rxCap ∧ ∀ i, i < s.rxlen.toNat → (s.rxbuf.lookup i).isSome = true

/-- BAD_CAUSE is nonzero exactly when RESULT = 3 (R27); NEED is 1 to 255 when RESULT = 2 and else 0 (R32); BADINFO is
zero but after LRC_MISMATCH and LEN_MISMATCH (R35). -/
def outcomeCoded (s : State) : Prop :=
  (s.status.badCause ≠ .none ↔ s.status.result = .badHeader) ∧
  (s.status.result = .needMoreData → 1 ≤ s.need.toNat ∧ s.need.toNat ≤ 255) ∧
  (s.status.result ≠ .needMoreData → s.need = 0) ∧
  (s.status.badCause = .none ∨ s.status.badCause = .allZero → s.badinfo = { a := 0, b := 0 })

/-- After a PARSE, PKT_VALID is 1 exactly on outcome OK (R29); PKT_VALID implies HDR_VALID; and with HDR_VALID = 1 the
header record holds a valid header (R28, R131). -/
def recordFlagged (s : State) : Prop :=
  (s.status.result ≠ .none → (s.status.pktValid = true ↔ s.status.result = .ok)) ∧
  (s.status.pktValid = true → s.status.hdrValid = true) ∧
  (s.status.result ≠ .none → s.status.hdrValid = true → validHeader (wireOf s.hdr s.hcrc) = true)

/-- CRC_DONE = 1 means that CRC_GOOD is the result of a CRC_CHECK of the payload and HCRC as they are (R30). -/
def crcCurrent (s : State) : Prop :=
  (s.status.crcDone = false → s.status.crcGood = false) ∧
  (s.status.crcDone = true →
    s.calcCrc = crc16 (payload s) ∧ (s.status.crcGood = true ↔ crc16 (payload s) = s.hcrc))

/-- The invariant of the block. -/
def BlockInv (s : State) : Prop :=
  ramsCanonical s ∧ windowBacked s ∧ outcomeCoded s ∧ recordFlagged s ∧ crcCurrent s

end Sys2Proof.Machine
end

