-- ==== Sys2Proof/Certificates/Slice0/Obligations.lean ====
section
/-! DEFINITION. The statements for the provers. In every equation for a next state, the field `resp` is the model's own
record of the block's answer on the bus (log 7); where it stands as `r` nothing is said of it. -/

open Sys2Proof Sys2Proof.Machine

/-! ## Encoding -/

/-- R80 to R87: for every operation of the table, every operand at every value its encoding admits. -/
def Obligations.DecodeOfEncodeIsTheOperation : Prop :=
  ∀ i : Instr, i.wf = true → decode (encode i) = .ok i

/-- R86: each transaction the block decodes has exactly one reading, which is an operation of the table and keeps every
bit of it. -/
def Obligations.EncodeOfDecodeIsTheTransaction : Prop :=
  ∀ (t : Txn) (i : Instr), decode t = .ok i → i.wf = true ∧ encode i = t

/-- R60, U13: an offset in the block is always decoded; any other never is, and is rejected by name (log 9). -/
def Obligations.DecoderRejectsOnlyOffsetsOutsideTheBlock : Prop :=
  ∀ t : Txn, if t.off < 0x4000 then ∃ i, decode t = .ok i else decode t = .error (.offsetOutside t.off)

/-- Words of R82 written out from its pattern string, first character bit 31, and offsets of R87. -/
def Obligations.WordsWrittenOutFromTheEncodingDecode : Prop :=
  decode (fullWrite 0x000 0b00000000000000000000000000000001#32) = .ok .parse ∧
  decode (fullWrite 0x000 0b00000000000000000000000000010010#32) = .ok .lrcUpdate4 ∧
  decode (fullWrite 0x000 0b00000000000000000000000000011001#32) = .ok .crcUpdate ∧
  decode (fullWrite 0x000 0b00000000000000000000000000111111#32) = .ok .softReset ∧
  decode (fullWrite 0x000 0b00000000000000000000000100000001#32) = .ok (.wrCmd 0x101#32) ∧
  decode (fullWrite 0x13F8 0xAB#32) = .ok (.wrPay 254 0xAB#32) ∧
  decode (fullRead 0x240C) = .ok (.rdRaw 259) ∧
  decode (fullRead 0x028) = .ok (.rdReg (.reg .pktlen)) ∧
  decode (fullRead 0x03C) = .ok (.busError (fullRead 0x03C))

/-- R87. A write at a mapped offset other than CMD is selected by its offset alone; a read at a mapped offset is
`RD <reg>` (of RAW, `RD RAW[i]`); either at a reserved aligned offset is a bus error. -/
def Obligations.BusOperationsAreSelectedByOffset : Prop :=
  ∀ (off : Nat) (d : Word), off < 0x4000 → off % 4 = 0 →
    (mappedOffset off →
      (if off = 0x000 then (legalCommand d = false → decode (fullWrite off d) = .ok (.wrCmd d))
       else if off = 0x004 then decode (fullWrite off d) = .ok (.wrArg d)
       else if off = 0x01C then decode (fullWrite off d) = .ok (.wrExpect d)
       else if off = 0x024 then decode (fullWrite off d) = .ok (.wrRxData d)
       else if off = 0x040 then decode (fullWrite off d) = .ok (.wrTovSecIn d)
       else if off = 0x044 then decode (fullWrite off d) = .ok (.wrTovUsIn d)
       else if 0x1000 ≤ off ∧ off ≤ 0x13F8 then decode (fullWrite off d) = .ok (.wrPay ((off - 0x1000) / 4) d)
       else ∃ g, g.off = off ∧ decode (fullWrite off d) = .ok (.wrIgnored g d)) ∧
      (if 0x2000 ≤ off then decode (fullRead off) = .ok (.rdRaw ((off - 0x2000) / 4))
       else ∃ g, g.off = off ∧ decode (fullRead off) = .ok (.rdReg g))) ∧
    (¬ mappedOffset off →
      decode (fullWrite off d) = .ok (.busError (fullWrite off d)) ∧
      decode (fullRead off) = .ok (.busError (fullRead off)))

/-- R84: the illegal words are those with MBZ not 0 or with an OPC in the listed gaps. Writing one sets CMD_ERR, changes
nothing else and completes. -/
def Obligations.IllegalCommandWordSetsOnlyCmdErr : Prop :=
  ∀ (w : Word) (s : State),
    (256 ≤ w.toNat ∨ (0x05 ≤ w.toNat ∧ w.toNat ≤ 0x07) ∨ (0x09 ≤ w.toNat ∧ w.toNat ≤ 0x0F) ∨
      (0x13 ≤ w.toNat ∧ w.toNat ≤ 0x17) ∨ (0x1A ≤ w.toNat ∧ w.toNat ≤ 0x1F) ∨ (0x21 ≤ w.toNat ∧ w.toNat ≤ 0x2F) ∨
      (0x31 ≤ w.toNat ∧ w.toNat ≤ 0x3E) ∨ (0x40 ≤ w.toNat ∧ w.toNat ≤ 0xFF)) →
    commandWord w (.wrCmd w) ∧
      ∃ r, exec (.wrCmd w) s = .next { s with status := { s.status with cmdErr := true }, resp := r }

/-! ## The machine -/

/-- R66, R80: when the host's next transaction decodes to `i` and the block is not in reset, the step is `exec i` on the
state with that transaction taken off the model's list of pending events (log 6). -/
def Obligations.StepRunsTheDecodedOperation : Prop :=
  ∀ (s : State) (t : Txn) (rest : List HostEvent) (i : Instr),
    s.pending = .txn t :: rest → s.inReset = false → decode t = .ok i →
    step s = exec i { s with pending := rest }

/-- R54, R68, R60: wherever the block stands, a host's transaction at the address `base + off` with `off < 0x4000` is the
transaction at offset `off`, so that it runs the operation decoded there; an address outside those 16 KiB is refused (U13).
The step of the machine is the one at the platform's `BASE`, which nothing constrains (U6). The two forms of event, by
address and by offset, and that such an address is refused during reset too, are the model's choice (logs 6, 9, 21). -/
def Obligations.HostAddressesAreTakenFromTheBase : Prop :=
  (∀ s : State, step s = stepAt Config.base s) ∧
  ∀ (base : Nat) (s : State) (h : HostTxn) (rest : List HostEvent), s.pending = .bus h :: rest →
    (∀ off, off < 0x4000 → h.addr = base + off →
      stepAt base s =
        stepAt base { s with pending := .txn { kind := h.kind, access := h.access, off := off } :: rest } ∧
      ∀ i, s.inReset = false → decode { kind := h.kind, access := h.access, off := off } = .ok i →
        stepAt base s = exec i { s with pending := rest }) ∧
    (h.addr < base ∨ base + 0x4000 ≤ h.addr → stepAt base s = .refused (.addressOutside h.addr))

/-- The model's other steps on a reset event, an offset or nothing pending (logs 6, 8, 9, 15; that reset comes before an
offset outside the block, log 21, DESIGN CHOICE): it waits with nothing pending; a transaction during reset stops (U7);
an offset outside the block is refused (U13); release ends reset. -/
def Obligations.StepWithoutADecodedOperation : Prop :=
  ∀ (s : State) (t : Txn) (rest : List HostEvent),
    (s.pending = [] → step s = .next s) ∧
    (s.pending = .resetRelease :: rest → step s = .next { s with pending := rest, inReset := false }) ∧
    (s.pending = .txn t :: rest → s.inReset = true → step s = .fault (.transactionDuringReset t.off)) ∧
    (s.pending = .txn t :: rest → s.inReset = false → 0x4000 ≤ t.off → step s = .refused (.offsetOutside t.off))

/-- R201: no operation but a bus error stops the machine, whatever the state. -/
def Obligations.EveryOperationButBusErrorCompletes : Prop :=
  ∀ (i : Instr) (s : State), i.wf = true → (∀ t, i ≠ .busError t) → ∃ t, exec i s = .next t

/-- R201, R66 over the model's list of pending events (log 6) and its reset input (log 8), both DESIGN CHOICE: from every
state, PUT OUT OF RESET by `issueNext` (in reset a transaction stops, U7), the transaction of an operation other than a bus
error, issued next, is performed; it leaves the earlier events pending and the block out of reset. -/
def Obligations.IssuedOperationsStepSafely : Prop :=
  ∀ (i : Instr) (s : State), i.wf = true → (∀ t, i ≠ .busError t) →
    safeStep (s.issueNext (encode i)) ∧
      ∀ t, step (s.issueNext (encode i)) = .next t → t.pending = s.pending ∧ t.inReset = false

/-- R194 with R53, R61, R62 and the order of R195: a transaction that is narrow, misaligned or at a reserved offset is a
BusError, which the model treats as a fault (log 1), for width or alignment before a reserved offset. -/
def Obligations.UndecodableTransactionsStopWithBusError : Prop :=
  ∀ (t : Txn) (s : State), t.off < 0x4000 →
    (t.access ≠ .word 0xF#4 ∨ t.off % 4 ≠ 0 →
      decode t = .ok (.busError t) ∧ exec (.busError t) s = .fault (.busError t.off .access)) ∧
    (t.access = .word 0xF#4 → t.off % 4 = 0 → ¬ mappedOffset t.off →
      decode t = .ok (.busError t) ∧ exec (.busError t) s = .fault (.busError t.off .reserved))

/-! ## Checksums -/

/-- R100: LRC is 256 less the exact sum, mod 256; it is 0 exactly when the sum is 0 mod 256; order does not matter. -/
def Obligations.LrcNegatesTheByteSum : Prop :=
  (∀ bs : List Byte, (lrc bs).toNat = (256 - (bs.map BitVec.toNat).sum % 256) % 256) ∧
  (∀ bs : List Byte, lrc bs = 0 ↔ (bs.map BitVec.toNat).sum % 256 = 0) ∧
  (∀ bs cs : List Byte, bs.Perm cs → lrc bs = lrc cs)

/-- R101: the checksum-to-zero property, in both forms. -/
def Obligations.LrcSumsToZeroWithItsBytes : Prop :=
  ∀ bs : List Byte,
    ((bs.map BitVec.toNat).sum + (lrc bs).toNat) % 256 = 0 ∧ lrc (bs ++ [lrc bs]) = 0

/-- R102, R103: the table-driven step is the MSB-first division of the register, with the byte added at its high end, by
0x1021, one bit at a time. -/
def Obligations.CrcTableStepIsBitSerialDivision : Prop :=
  ∀ (crc : Half) (b : Byte),
    crcStep crc b =
      (List.range 8).foldl (fun (c : Half) _ => if c.toNat < 32768 then c <<< 1 else (c <<< 1) ^^^ 0x1021#16)
        (crc ^^^ (b.setWidth 16 <<< 8))

/-- R109, R110, R111: the three LRC engine commands, their words, their one effect and nothing else. -/
def Obligations.LrcEngineCommandsWriteOnlyLrcSum : Prop :=
  commandWord 0x00000010#32 .lrcInit ∧ commandWord 0x00000011#32 .lrcUpdate ∧ commandWord 0x00000012#32 .lrcUpdate4 ∧
  ∀ s : State, ∃ r,
    exec .lrcInit s = .next { s with lrcSum := 0, resp := r } ∧
    exec .lrcUpdate s =
      .next { s with lrcSum := BitVec.ofNat 8 ((s.lrcSum.toNat + s.arg.toNat % 256) % 256), resp := r } ∧
    exec .lrcUpdate4 s =
      .next { s with
        lrcSum := BitVec.ofNat 8 ((s.lrcSum.toNat + s.arg.toNat % 256 + s.arg.toNat / 0x100 % 256
          + s.arg.toNat / 0x10000 % 256 + s.arg.toNat / 0x1000000) % 256),
        resp := r }

/-- R113, R114 (CRCSTEP of R103 in numbers): the CRC engine commands, their words, their one effect and nothing else. -/
def Obligations.CrcEngineCommandsWriteOnlyCrcAcc : Prop :=
  commandWord 0x00000018#32 .crcInit ∧ commandWord 0x00000019#32 .crcUpdate ∧
  ∀ s : State, ∃ r,
    exec .crcInit s = .next { s with crcAcc := 0xFFFF#16, resp := r } ∧
    exec .crcUpdate s =
      .next { s with
        crcAcc := BitVec.ofNat 16 (s.crcAcc.toNat * 256 % 65536) ^^^
          crcTable (BitVec.ofNat 8 (s.crcAcc.toNat / 256) ^^^ BitVec.ofNat 8 s.arg.toNat),
        resp := r }

/-- R108: after LRC_INIT and updates that add the bytes `bs`, LRC_SUM is their sum mod 256 and LRC_OUT reads LRC(bs). -/
def Obligations.LrcEngineAccumulatesItsBytes : Prop :=
  ∀ (bs : List Byte) (s : State), ∃ t,
    execAll (.lrcInit :: bs.flatMap (fun b => [.wrArg (b.setWidth 32), .lrcUpdate])) s = .next t ∧
    t.lrcSum.toNat = (bs.map BitVec.toNat).sum % 256 ∧
    readsWord (.rdReg (.reg .lrcOut)) t ((lrc bs).setWidth 32)

/-- R112: after CRC_INIT and updates with the bytes `bs`, CRC_ACC is CRC16(bs); of a payload held in PAY it is the value
UPDATE_HEADER writes to HCRC. -/
def Obligations.CrcEngineAccumulatesItsBytes : Prop :=
  ∀ (bs : List Byte) (s : State), ∃ t,
    execAll (.crcInit :: bs.flatMap (fun b => [.wrArg (b.setWidth 32), .crcUpdate])) s = .next t ∧
    t.crcAcc = crc16 bs ∧ readsWord (.rdReg (.reg .crcAcc)) t ((crc16 bs).setWidth 32) ∧
    (bs = (List.range s.hdr.len.toNat).map (payByte s) → ∃ u, exec .updateHeader s = .next u ∧ u.hcrc = t.crcAcc)

/-! ## The receive window and the payload buffer -/

/-- R133. -/
def Obligations.RxDataAppendsOrSetsOvf : Prop :=
  ∀ (d : Word) (s : State),
    decode (fullWrite 0x024 d) = .ok (.wrRxData d) ∧
    (s.rxlen.toNat < 260 →
      ∃ t, exec (.wrRxData d) s = .next t ∧
        t = { s with rxbuf := t.rxbuf, rxlen := BitVec.ofNat 9 (s.rxlen.toNat + 1), resp := t.resp } ∧
        ∀ j, rxByte t j = if j = s.rxlen.toNat then BitVec.ofNat 8 d.toNat else rxByte s j) ∧
    (260 ≤ s.rxlen.toNat →
      ∃ r, exec (.wrRxData d) s = .next { s with status := { s.status with ovf := true }, resp := r })

/-- R134. -/
def Obligations.PayWriteStoresAByteAndDropsTheCrcResult : Prop :=
  ∀ (i : Nat) (d : Word) (s : State), i ≤ 254 →
    decode (fullWrite (0x1000 + 4 * i) d) = .ok (.wrPay i d) ∧
    ∃ t, exec (.wrPay i d) s = .next t ∧
      t = { s with pay := t.pay, status := { s.status with crcDone := false, crcGood := false }, resp := t.resp } ∧
      ∀ j, payByte t j = if j = i then BitVec.ofNat 8 d.toNat else payByte s j

/-- R135: RXLEN alone is written; a PARSE then needs 5 bytes. -/
def Obligations.RxClearEmptiesTheWindow : Prop :=
  commandWord 0x00000008#32 .rxClear ∧
  ∀ s : State,
    (∃ r, exec .rxClear s = .next { s with rxlen := 0, resp := r }) ∧
    ∃ t, execAll [.rxClear, .parse] s = .next t ∧ t.status.result = .needMoreData ∧ t.need = 5

/-! ## PARSE -/

/-- R136: the test is true exactly when every byte is zero. -/
def Obligations.AllZeroTestHoldsOnlyForFiveZeroBytes : Prop :=
  ∀ w : Wire, allZero w = true ↔ w.b0 = 0 ∧ w.b1 = 0 ∧ w.b2 = 0 ∧ w.b3 = 0 ∧ w.b4 = 0

/-- R138, R140: the first test that applies decides; each outcome's whole next state. `b k` is RXBUF[k]. -/
def Obligations.ParseDecidesByTheFirstTestThatApplies : Prop :=
  commandWord 0x00000001#32 .parse ∧
  ∀ s : State, ∃ t, exec .parse s = .next t ∧
    let n := s.rxlen.toNat
    let b := rxByte s
    let len := (b 2).toNat
    let c : Byte := BitVec.ofNat 8 (256 - ((b 1).toNat + (b 2).toNat + (b 3).toNat + (b 4).toNat) % 256)
    let hdr : Hdr := { lrc := b 0, id := b 1, len := b 2 }
    let hcrc : Half := BitVec.ofNat 16 ((b 3).toNat + 256 * (b 4).toNat)
    let st := { s.status with crcDone := false, crcGood := false }
    if n < 5 then
      t = { s with
        status := { st with result := .needMoreData, badCause := .none, hdrValid := false, pktValid := false },
        need := BitVec.ofNat 9 (5 - n), badinfo := { a := 0, b := 0 }, resp := t.resp }
    else if b 0 = 0 ∧ b 1 = 0 ∧ b 2 = 0 ∧ b 3 = 0 ∧ b 4 = 0 then
      t = { s with
        status := { st with result := .badHeader, badCause := .allZero, hdrValid := false, pktValid := false },
        need := 0, badinfo := { a := 0, b := 0 }, resp := t.resp }
    else if b 0 ≠ c then
      t = { s with
        status := { st with result := .badHeader, badCause := .lrcMismatch, hdrValid := false, pktValid := false },
        need := 0, badinfo := { a := b 0, b := c }, hdr := hdr, hcrc := hcrc, resp := t.resp }
    else if n < 5 + len then
      t = { s with
        status := { st with result := .needMoreData, badCause := .none, hdrValid := true, pktValid := false },
        need := BitVec.ofNat 9 (5 + len - n), badinfo := { a := 0, b := 0 }, hdr := hdr, hcrc := hcrc,
        tovSnap := s.tovLatest, resp := t.resp }
    else
      (∀ k, payByte t k = if k < len then b (5 + k) else payByte s k) ∧
      if s.expect.en = true ∧ b 2 ≠ s.expect.len then
        t = { s with
          status := { st with result := .badHeader, badCause := .lenMismatch, hdrValid := true, pktValid := false },
          need := 0, badinfo := { a := b 2, b := s.expect.len }, hdr := hdr, hcrc := hcrc, tovSnap := s.tovLatest,
          pay := t.pay, resp := t.resp }
      else
        t = { s with
          status := { st with result := .ok, badCause := .none, hdrValid := true, pktValid := true },
          need := 0, badinfo := { a := 0, b := 0 }, hdr := hdr, hcrc := hcrc, tovSnap := s.tovLatest, pay := t.pay,
          resp := t.resp }

/-- R142: issuing PARSE again changes nothing. -/
def Obligations.ParseAgainGivesTheSameState : Prop :=
  ∀ s t : State, exec .parse s = .next t → exec .parse t = .next t

/-- R47, U2: PARSE never reads a byte of RXBUF at or above RXLEN. -/
def Obligations.ParseNeverReadsAboveRxlen : Prop :=
  ∀ (s t : State) (m : Memory), (∀ i, i < s.rxlen.toNat → m.lookup i = s.rxbuf.lookup i) →
    exec .parse s = .next t → exec .parse { s with rxbuf := m } = .next { t with rxbuf := m }

/-- R143: a window that holds the first `n` bytes of a packet `p` with a valid header (R131), and any bytes after it. -/
def Obligations.PartialInputAsksForWhatIsMissing : Prop :=
  ∀ (s : State) (p : List Byte),
    5 ≤ p.length → p.length = 5 + (p.getD 2 0).toNat →
    p.getD 0 0 = lrc [p.getD 1 0, p.getD 2 0, p.getD 3 0, p.getD 4 0] → (∃ k, k < 5 ∧ p.getD k 0 ≠ 0) →
    (∀ k, k < s.rxlen.toNat → k < p.length → rxByte s k = p.getD k 0) → s.expect.en = false →
    ∃ t, exec .parse s = .next t ∧
      if s.rxlen.toNat < 5 then t.status.result = .needMoreData ∧ t.need.toNat = 5 - s.rxlen.toNat
      else if s.rxlen.toNat < p.length then
        t.status.result = .needMoreData ∧ t.need.toNat = p.length - s.rxlen.toNat
      else t.status.result = .ok

/-- R144: a valid header whose length is not the variant's, first with the payload incomplete and then complete; with
the check off the complete bytes parse. -/
def Obligations.VariantLengthMismatchFailsOnceComplete : Prop :=
  ∀ s : State, 5 ≤ s.rxlen.toNat → validHeader (rxWire s) = true → s.expect.en = true → rxByte s 2 ≠ s.expect.len →
    ∃ t u, exec .parse s = .next t ∧ exec .parse { s with expect := { s.expect with en := false } } = .next u ∧
      if s.rxlen.toNat < 5 + (rxByte s 2).toNat then
        t.status.result = .needMoreData ∧ t.need.toNat = 5 + (rxByte s 2).toNat - s.rxlen.toNat
      else
        t.status.result = .badHeader ∧ t.status.badCause = .lenMismatch ∧ u.status.result = .ok

/-! ## The payload check and the outbound header -/

/-- R145. -/
def Obligations.CrcCheckRecordsTheComparison : Prop :=
  commandWord 0x00000002#32 .crcCheck ∧
  ∀ s : State,
    let c := crc16 ((List.range s.hdr.len.toNat).map (payByte s))
    ∃ r, exec .crcCheck s =
      .next { s with
        calcCrc := c, status := { s.status with crcDone := true, crcGood := decide (c = s.hcrc) }, resp := r }

/-- R146: after a parse whose payload CRC is good, a change of any one payload byte is caught by the next CRC_CHECK, and
the packet remains otherwise as decoded. -/
def Obligations.AnySingleByteCorruptionIsCaught : Prop :=
  ∀ (s : State) (i : Nat) (d : Word),
    crc16 ((List.range s.hdr.len.toNat).map (payByte s)) = s.hcrc → i < s.hdr.len.toNat →
    BitVec.ofNat 8 d.toNat ≠ payByte s i →
    ∃ t, execAll [.wrPay i d, .crcCheck] s = .next t ∧ t.status.crcDone = true ∧ t.status.crcGood = false ∧
      t.status.result = s.status.result ∧ t.hdr = s.hdr ∧ t.hcrc = s.hcrc

/-- R148: the CRC of the payload first, then the LRC over it. -/
def Obligations.UpdateHeaderComputesCrcThenLrc : Prop :=
  commandWord 0x00000003#32 .updateHeader ∧
  ∀ s : State,
    let c := crc16 ((List.range s.hdr.len.toNat).map (payByte s))
    ∃ r, exec .updateHeader s =
      .next { s with
        hcrc := c,
        hdr := { s.hdr with
          lrc := BitVec.ofNat 8
            (256 - (s.hdr.id.toNat + s.hdr.len.toNat + c.toNat % 256 + c.toNat / 256) % 256) },
        status := { s.status with crcDone := false, crcGood := false }, resp := r }

/-- R149: the header record is then valid under R131, and a CRC_CHECK is good. -/
def Obligations.UpdatedHeaderIsValidAndChecksGood : Prop :=
  ∀ s : State, ∃ t u, exec .updateHeader s = .next t ∧
    (t.hdr.lrc = lrc [t.hdr.id, t.hdr.len, BitVec.ofNat 8 t.hcrc.toNat, BitVec.ofNat 8 (t.hcrc.toNat / 256)] ∧
      ¬ (t.hdr.lrc = 0 ∧ t.hdr.id = 0 ∧ t.hdr.len = 0 ∧ t.hcrc = 0)) ∧
    exec .crcCheck t = .next u ∧ u.status.crcGood = true

/-- R150. -/
def Obligations.BuildStartsAnOutboundPacket : Prop :=
  commandWord 0x00000004#32 .build ∧
  ∀ s : State, ∃ r, exec .build s =
    .next { s with
      hdr := { lrc := 0, id := BitVec.ofNat 8 s.arg.toNat, len := BitVec.ofNat 8 (s.arg.toNat / 256) }, hcrc := 0,
      tovSnap := s.tovLatest,
      status := { s.status with
        hdrValid := true, pktValid := true, result := .none, badCause := .none, crcDone := false, crcGood := false },
      need := 0, badinfo := { a := 0, b := 0 }, resp := r }

/-- R151, R152: the RAW view. -/
def Obligations.RawViewReadsTheWireBytes : Prop :=
  ∀ (i : Nat) (s : State), i ≤ 259 →
    decode (fullRead (0x2000 + 4 * i)) = .ok (.rdRaw i) ∧
    readsWord (.rdRaw i) s
      (BitVec.ofNat 32
        (if i = 0 then s.hdr.lrc.toNat
         else if i = 1 then s.hdr.id.toNat
         else if i = 2 then s.hdr.len.toNat
         else if i = 3 then s.hcrc.toNat % 256
         else if i = 4 then s.hcrc.toNat / 256
         else if i < 5 + s.hdr.len.toNat then (payByte s (i - 5)).toNat
         else 0))

/-- R153: a packet completed by UPDATE_HEADER, read out through RAW, appended to an emptied window and parsed, is the
same packet; its snapshot too, where the registry still holds it. -/
def Obligations.RawReadoutParsesBackToThePacket : Prop :=
  ∀ s u : State, exec .updateHeader s = .next u → (u.expect.en = false ∨ u.expect.len = u.hdr.len) →
    ∃ t,
      execAll (.rxClear :: ((List.range (5 + u.hdr.len.toNat)).map fun i => .wrRxData ((rawByte u i).setWidth 32))
        ++ [.parse]) u = .next t ∧
      t.status.result = .ok ∧ t.status.hdrValid = true ∧ t.hdr = u.hdr ∧ t.hcrc = u.hcrc ∧
      (∀ k, k < u.hdr.len.toNat → payByte t k = payByte u k) ∧ (u.tovSnap = u.tovLatest → t.tovSnap = u.tovSnap)

/-! ## Control and operand operations -/

/-- R170 to R173. -/
def Obligations.NopAndOperandWritesStoreOnlyTheirOperand : Prop :=
  commandWord 0x00000000#32 .nop ∧
  ∀ (d : Word) (s : State),
    (decode (fullWrite 0x004 d) = .ok (.wrArg d) ∧ decode (fullWrite 0x01C d) = .ok (.wrExpect d) ∧
      decode (fullWrite 0x040 d) = .ok (.wrTovSecIn d) ∧ decode (fullWrite 0x044 d) = .ok (.wrTovUsIn d)) ∧
    ∃ r, exec .nop s = .next { s with resp := r } ∧
      exec (.wrArg d) s = .next { s with arg := d, resp := r } ∧
      exec (.wrExpect d) s =
        .next { s with
          expect := { len := BitVec.ofNat 8 d.toNat, en := decide (d.toNat / 256 % 2 = 1) }, resp := r } ∧
      exec (.wrTovSecIn d) s = .next { s with tovIn := { sec := d, us := s.tovIn.us }, resp := r } ∧
      exec (.wrTovUsIn d) s = .next { s with tovIn := { sec := s.tovIn.sec, us := d }, resp := r }

/-- R174, R175: the staged pair replaces the registry in one step and takes no snapshot; STATUS_CLEAR clears the two
sticky flags alone. -/
def Obligations.TovSetAndStatusClearWriteOnlyTheirFields : Prop :=
  commandWord 0x00000020#32 .tovSet ∧ commandWord 0x00000030#32 .statusClear ∧
  ∀ s : State, ∃ r,
    exec .tovSet s = .next { s with tovLatest := { sec := s.tovIn.sec, us := s.tovIn.us }, resp := r } ∧
    exec .statusClear s = .next { s with status := { s.status with ovf := false, cmdErr := false }, resp := r }

/-- R176, R22: every register takes its reset value; RXBUF and PAY keep their contents. That ARG and EXPECT are among
these registers is DEDUCED (log 16): R24 and R36 say that no command writes them. That the reset input and the model's own
`pending` and `draws` are unchanged is the model's choice (logs 5, 6, 8); nothing is said of `resp` (log 7). -/
def Obligations.SoftResetRestoresEveryRegister : Prop :=
  commandWord 0x0000003F#32 .softReset ∧
  ∀ s : State, ∃ r, exec .softReset s =
    .next {
      arg := 0
      status :=
        { result := .none, badCause := .none, hdrValid := false, pktValid := false, crcDone := false,
          crcGood := false, ovf := false, cmdErr := false }
      need := 0, hdr := { lrc := 0, id := 0, len := 0 }, hcrc := 0, badinfo := { a := 0, b := 0 }
      expect := { len := 0, en := false }, rxlen := 0, calcCrc := 0, lrcSum := 0, crcAcc := 0xFFFF#16
      tovIn := { sec := 0, us := 0 }, tovLatest := { sec := 0, us := 0 }, tovSnap := { sec := 0, us := 0 }
      rxbuf := s.rxbuf, pay := s.pay
      inReset := s.inReset, pending := s.pending, resp := r, draws := s.draws }

/-- R210: the hardware reset input has the effect of SOFT_RESET on every register and on both RAMs. That it stands in
the list of pending events, and what it does to the model's own fields, is the model's choice (log 8); what SOFT_RESET does
to ARG and EXPECT is DEDUCED (log 16). -/
def Obligations.HardwareResetActsAsSoftReset : Prop :=
  ∀ (s : State) (rest : List HostEvent), s.pending = .resetAssert :: rest →
    ∃ t u, step s = .next t ∧ exec .softReset s = .next u ∧ t.inReset = true ∧ t.pending = rest ∧
      { t with inReset := u.inReset, pending := u.pending, resp := u.resp } = u

/-! ## Reads and ignored writes -/

/-- The words of R22's table at the state after reset, by offset, and the RAW view (R210). -/
def Obligations.ResetReadsGiveTheTableValues : Prop :=
  (∀ p ∈ [(0x000, 0), (0x004, 0), (0x008, 0), (0x00C, 0), (0x010, 0), (0x014, 0), (0x018, 0), (0x01C, 0), (0x020, 0),
      (0x024, 0), (0x028, 5), (0x02C, 0), (0x030, 0), (0x034, 0), (0x038, 0xFFFF#32), (0x040, 0), (0x044, 0),
      (0x048, 0), (0x04C, 0), (0x050, 0), (0x054, 0)],
    ∃ i, decode (fullRead p.1) = .ok i ∧ readsWord i State.reset p.2) ∧
  ∀ k, k < 260 → readsWord (.rdRaw k) State.reset 0

/-- R25, R26, R27: the fields of the STATUS word. -/
def Obligations.StatusWordHasItsFieldsInPlace : Prop :=
  ∀ s : State, ∃ w, readsWord (.rdReg (.reg .status)) s w ∧
    w.toNat % 4 = (match s.status.result with | .none => 0 | .ok => 1 | .needMoreData => 2 | .badHeader => 3) ∧
    w.toNat / 4 % 4 =
      (match s.status.badCause with | .none => 0 | .allZero => 1 | .lrcMismatch => 2 | .lenMismatch => 3) ∧
    w.getLsbD 4 = s.status.hdrValid ∧ w.getLsbD 5 = s.status.pktValid ∧ w.getLsbD 6 = s.status.crcDone ∧
    w.getLsbD 7 = s.status.crcGood ∧ w.getLsbD 8 = s.status.ovf ∧ w.getLsbD 9 = s.status.cmdErr ∧ w.toNat < 1024

/-- R23, R24, R32 to R46: what a read of each other register returns, in numbers, and that it changes nothing. -/
def Obligations.RegisterReadsReturnTheirFields : Prop :=
  ∀ s : State,
    readsWord (.rdReg (.reg .cmd)) s 0 ∧ readsWord (.rdReg (.reg .rxData)) s 0 ∧
    readsWord (.rdReg (.reg .arg)) s s.arg ∧
    readsWord (.rdReg (.reg .need)) s (BitVec.ofNat 32 s.need.toNat) ∧
    readsWord (.rdReg (.reg .hdr)) s
      (BitVec.ofNat 32 (s.hdr.lrc.toNat + 0x100 * s.hdr.id.toNat + 0x10000 * s.hdr.len.toNat)) ∧
    readsWord (.rdReg (.reg .hcrc)) s (BitVec.ofNat 32 s.hcrc.toNat) ∧
    readsWord (.rdReg (.reg .badinfo)) s (BitVec.ofNat 32 (s.badinfo.a.toNat + 0x100 * s.badinfo.b.toNat)) ∧
    readsWord (.rdReg (.reg .expect)) s
      (BitVec.ofNat 32 (s.expect.len.toNat + if s.expect.en = true then 0x100 else 0)) ∧
    readsWord (.rdReg (.reg .rxlen)) s (BitVec.ofNat 32 s.rxlen.toNat) ∧
    readsWord (.rdReg (.reg .pktlen)) s (BitVec.ofNat 32 (5 + s.hdr.len.toNat)) ∧
    readsWord (.rdReg (.reg .calcCrc)) s (BitVec.ofNat 32 s.calcCrc.toNat) ∧
    readsWord (.rdReg (.reg .lrcSum)) s (BitVec.ofNat 32 s.lrcSum.toNat) ∧
    readsWord (.rdReg (.reg .lrcOut)) s (BitVec.ofNat 32 ((256 - s.lrcSum.toNat) % 256)) ∧
    readsWord (.rdReg (.reg .crcAcc)) s (BitVec.ofNat 32 s.crcAcc.toNat) ∧
    readsWord (.rdReg (.reg .tovSecIn)) s s.tovIn.sec ∧ readsWord (.rdReg (.reg .tovUsIn)) s s.tovIn.us ∧
    readsWord (.rdReg (.reg .tovLatestSec)) s s.tovLatest.sec ∧
    readsWord (.rdReg (.reg .tovLatestUs)) s s.tovLatest.us ∧
    readsWord (.rdReg (.reg .tovSnapSec)) s s.tovSnap.sec ∧ readsWord (.rdReg (.reg .tovSnapUs)) s s.tovSnap.us

/-- R47, R48: the byte windows. Below RXLEN an RXBUF word is its byte; at or above it, some byte (U2). -/
def Obligations.WindowReadsReturnTheirBytes : Prop :=
  ∀ (s : State) (i : Nat),
    (i < 260 → i < s.rxlen.toNat → readsWord (.rdReg (.rxbuf i)) s (BitVec.ofNat 32 (rxByte s i).toNat)) ∧
    (i < 260 → s.rxlen.toNat ≤ i → ∃ b : Byte, readsWord (.rdReg (.rxbuf i)) s (BitVec.ofNat 32 b.toNat)) ∧
    (i < 255 → readsWord (.rdReg (.pay i)) s (BitVec.ofNat 32 (payByte s i).toNat))

/-- R64: two reads with no write between them return the same word, RXBUF words at index `>= RXLEN` apart; a byte of PAY
never written too (U3: fixed once drawn; log 2). -/
def Obligations.ReadingTwiceReturnsTheSameWord : Prop :=
  ∀ (i : Instr) (s : State), i.wf = true →
    ((∃ k, i = .rdRaw k) ∨ ∃ g, i = .rdReg g ∧ ∀ k, g = .rxbuf k → k < s.rxlen.toNat) →
    ∃ w t, exec i s = .next t ∧ t.resp = some (.readData w) ∧ readsWord i t w

/-- R24, R36, R44, R48: what is written to a read-write register or window is read back, in the bits it holds; and an
appended byte is read back from the receive window (R47). -/
def Obligations.WrittenWordsAreReadBack : Prop :=
  ∀ (d : Word) (s : State),
    (∃ t, exec (.wrArg d) s = .next t ∧ readsWord (.rdReg (.reg .arg)) t d) ∧
    (∃ t, exec (.wrExpect d) s = .next t ∧ readsWord (.rdReg (.reg .expect)) t (d &&& 0x1FF#32)) ∧
    (∃ t, exec (.wrTovSecIn d) s = .next t ∧ readsWord (.rdReg (.reg .tovSecIn)) t d) ∧
    (∃ t, exec (.wrTovUsIn d) s = .next t ∧ readsWord (.rdReg (.reg .tovUsIn)) t d) ∧
    (∀ i, i < 255 → ∃ t, exec (.wrPay i d) s = .next t ∧ readsWord (.rdReg (.pay i)) t (d &&& 0xFF#32)) ∧
    (s.rxlen.toNat < 260 →
      ∃ t, exec (.wrRxData d) s = .next t ∧ readsWord (.rdReg (.rxbuf s.rxlen.toNat)) t (d &&& 0xFF#32))

/-- R52: a write at a mapped target that is read-only changes nothing and raises no error. -/
def Obligations.WritesToReadOnlyTargetsAreIgnored : Prop :=
  ∀ (g : Target) (d : Word) (s : State), g.inRange = true →
    (∀ r, g = .reg r → r ∉ [Reg.cmd, Reg.arg, Reg.expect, Reg.rxData, Reg.tovSecIn, Reg.tovUsIn]) → (∀ k, g ≠ .pay k) →
    decode (fullWrite g.off d) = .ok (.wrIgnored g d) ∧ ∃ r, exec (.wrIgnored g d) s = .next { s with resp := r }

/-! ## Rules over the whole machine -/

/-- Who writes the registers of the envelope: R26, R33, R34, R37, R47, R48, and R32, R35, R36, R24 with SOFT_RESET added
to the writers of ARG and EXPECT (log 16). -/
def Obligations.OnlyTheseOperationsWriteTheEnvelope : Prop :=
  ∀ (i : Instr) (s t : State), exec i s = .next t →
    (t.status.result ≠ s.status.result → t.status.result ≠ .none → i = .parse) ∧
    (t.status.result ≠ s.status.result ∨ t.status.badCause ≠ s.status.badCause ∨ t.need ≠ s.need ∨
      t.badinfo ≠ s.badinfo ∨ t.status.hdrValid ≠ s.status.hdrValid ∨ t.status.pktValid ≠ s.status.pktValid →
      i = .parse ∨ i = .build ∨ i = .softReset) ∧
    (t.hdr ≠ s.hdr ∨ t.hcrc ≠ s.hcrc → i = .parse ∨ i = .build ∨ i = .updateHeader ∨ i = .softReset) ∧
    (t.hdr.id ≠ s.hdr.id ∨ t.hdr.len ≠ s.hdr.len → i ≠ .updateHeader) ∧
    (t.arg ≠ s.arg → (∃ d, i = .wrArg d) ∨ i = .softReset) ∧
    (t.expect ≠ s.expect → (∃ d, i = .wrExpect d) ∨ i = .softReset) ∧
    (t.rxlen ≠ s.rxlen → (∃ d, i = .wrRxData d) ∨ i = .rxClear ∨ i = .softReset) ∧
    (t.rxbuf ≠ s.rxbuf → ∃ d, i = .wrRxData d) ∧
    (t.pay ≠ s.pay → i = .parse ∨ ∃ k d, i = .wrPay k d)

/-- Who writes the engines, the CRC result, the sticky flags and the time of validity: R30, R31, R40, R41, R43, R45, R46
(and R44 with SOFT_RESET added, log 16). -/
def Obligations.OnlyTheseOperationsWriteTheRest : Prop :=
  ∀ (i : Instr) (s t : State), exec i s = .next t →
    (t.calcCrc ≠ s.calcCrc → i = .crcCheck ∨ i = .softReset) ∧
    (t.status.crcDone ≠ s.status.crcDone ∨ t.status.crcGood ≠ s.status.crcGood →
      i = .crcCheck ∨ i = .parse ∨ i = .build ∨ i = .updateHeader ∨ (∃ k d, i = .wrPay k d) ∨ i = .softReset) ∧
    (t.lrcSum ≠ s.lrcSum → i = .lrcInit ∨ i = .lrcUpdate ∨ i = .lrcUpdate4 ∨ i = .softReset) ∧
    (t.crcAcc ≠ s.crcAcc → i = .crcInit ∨ i = .crcUpdate ∨ i = .softReset) ∧
    (s.status.ovf = false → t.status.ovf = true → s.rxlen.toNat ≥ 260 ∧ ∃ d, i = .wrRxData d) ∧
    (s.status.cmdErr = false → t.status.cmdErr = true → ∃ w, i = .wrCmd w) ∧
    ((s.status.ovf = true ∧ t.status.ovf = false) ∨ (s.status.cmdErr = true ∧ t.status.cmdErr = false) →
      i = .statusClear ∨ i = .softReset) ∧
    (t.tovIn ≠ s.tovIn → (∃ d, i = .wrTovSecIn d ∨ i = .wrTovUsIn d) ∨ i = .softReset) ∧
    (t.tovLatest ≠ s.tovLatest → i = .tovSet ∨ i = .softReset) ∧
    (t.tovSnap ≠ s.tovSnap → t.tovSnap = s.tovLatest ∧ (i = .parse ∨ i = .build) ∨ i = .softReset)

/-- R107: no operation but the engine's own, a reset and a register read depends on the engine registers, and none but
the first two changes them. -/
def Obligations.EnvelopeAndEnginesShareNoState : Prop :=
  ∀ (i : Instr) (s t : State) (x : Byte) (y : Half),
    i ∉ [Instr.lrcInit, .lrcUpdate, .lrcUpdate4, .crcInit, .crcUpdate, .softReset] → (∀ g, i ≠ .rdReg g) →
    exec i s = .next t →
    exec i { s with lrcSum := x, crcAcc := y } = .next { t with lrcSum := x, crcAcc := y }

/-- R31: the sticky flags block nothing: with them set otherwise, every operation completes with the same effect on
everything but themselves and the answer to a read of STATUS. -/
def Obligations.StickyFlagsBlockNothing : Prop :=
  ∀ (i : Instr) (s t : State) (x y : Bool), exec i s = .next t →
    ∃ u, exec i { s with status := { s.status with ovf := x, cmdErr := y } } = .next u ∧
      { u with status := { u.status with ovf := t.status.ovf, cmdErr := t.status.cmdErr }, resp := t.resp } = t

/-- R89, R90: the pseudo-operations of fixed length, issued by the host (as the model's list of pending events, log 6) to a
block out of reset (log 8), step by step through the machine. -/
def Obligations.PseudoOperationsDoTheirWork : Prop :=
  ∀ (s : State) (rest : List HostEvent), s.inReset = false →
    (∀ a b : Word, ∃ t, performs s [.settov a b] rest t ∧ t.tovLatest = { sec := a, us := b } ∧
      t.tovSnap = s.tovSnap) ∧
    (∀ n : Byte, ∃ t, performs s [.expectlen n] rest t ∧ t.expect = { len := n, en := true }) ∧
    (∃ t, performs s [.noexpect] rest t ∧ t.expect = { len := 0, en := false }) ∧
    (∀ a n : Byte, ∃ t, performs s [.buildp a n] rest t ∧ t.hdr = { lrc := 0, id := a, len := n } ∧ t.hcrc = 0 ∧
      t.tovSnap = s.tovLatest) ∧
    (∀ b : Byte, ∃ t, performs s [.lrcb b] rest t ∧ t.lrcSum.toNat = (s.lrcSum.toNat + b.toNat) % 256) ∧
    (∀ b0 b1 b2 b3 : Byte, ∃ t, performs s [.lrc4 b0 b1 b2 b3] rest t ∧
      t.lrcSum.toNat = (s.lrcSum.toNat + b0.toNat + b1.toNat + b2.toNat + b3.toNat) % 256) ∧
    (∀ b : Byte, ∃ t, performs s [.crcb b] rest t ∧ t.crcAcc = crcStep s.crcAcc b)

/-- R89, R90, R133, R134: PUSH appends its bytes to a window with room for them, and WRPAY fills PAY from its index, issued
as the model's list of pending events (log 6) to a block out of reset (log 8). -/
def Obligations.PushAndWrpayFillTheirWindows : Prop :=
  ∀ (s : State) (rest : List HostEvent) (bs : List Byte), s.inReset = false →
    (s.rxlen.toNat + bs.length ≤ 260 →
      ∃ t, performs s [.push bs] rest t ∧ t.rxlen.toNat = s.rxlen.toNat + bs.length ∧
        ∀ k, rxByte t k =
          if s.rxlen.toNat ≤ k ∧ k < s.rxlen.toNat + bs.length then bs.getD (k - s.rxlen.toNat) 0 else rxByte s k) ∧
    (∀ i, i + bs.length ≤ 255 →
      ∃ t, performs s [.wrpay i bs] rest t ∧
        ∀ k, payByte t k = if i ≤ k ∧ k < i + bs.length then bs.getD (k - i) 0 else payByte s k)

/-- The canonical form of both RAMs; RXLEN at most 260 with every byte below it appended (R37, R47); the outcome codes
(R27, R32, R35); the meaning of HDR_VALID and PKT_VALID (R28, R29); and of CRC_DONE (R30): every step keeps them. -/
def Obligations.EveryStepKeepsTheInvariant : Prop :=
  ∀ s t : State, BlockInv s → step s = .next t → BlockInv t

/-- The invariant holds after reset. -/
def Obligations.InvariantHoldsAtReset : Prop :=
  BlockInv State.reset
end

