-- ==== Sys2Proof/Laws/Checksum.lean ====
section
/-! SUPPORT. The byte sum and the CRC in numbers, and over the ends of a byte sequence (spec/40_checksum.md R100, R103). -/

namespace Sys2Proof.Machine

theorem foldl_add_toNat (bs : List Byte) (a : Byte) :
    (bs.foldl (· + ·) a).toNat = (a.toNat + (bs.map BitVec.toNat).sum) % 256 := by
  induction bs generalizing a with
  | nil => simp [Nat.mod_eq_of_lt a.isLt]
  | cons b bs ih => simp [ih]; omega

/-- The wrapping sum is the exact sum mod 256. -/
theorem byteSum_toNat (bs : List Byte) : (byteSum bs).toNat = (bs.map BitVec.toNat).sum % 256 := by
  simp [byteSum, foldl_add_toNat]

theorem byteSum_append (bs cs : List Byte) : byteSum (bs ++ cs) = byteSum bs + byteSum cs := by
  apply BitVec.eq_of_toNat_eq
  simp [byteSum_toNat]

theorem lrcOfSum_toNat (a : Byte) : (lrcOfSum a).toNat = (256 - a.toNat) % 256 := by
  have := a.isLt
  simp [lrcOfSum]
  omega

@[simp] theorem crc16_nil : crc16 [] = 0xFFFF#16 := rfl

theorem crc16_append (bs : List Byte) (b : Byte) : crc16 (bs ++ [b]) = crcStep (crc16 bs) b := by
  simp [crc16]

end Sys2Proof.Machine
end

