-- ==== Sys2Proof/Laws/Config.lean ====
section
/-! SUPPORT. How the parameters of spec/00_scope.md R8 hang together, and the widths in numbers. -/

namespace Sys2Proof

/-- R8: the longest packet is its header and the longest payload, and the two byte RAMs hold one each. -/
theorem Config.maxPacket_eq : Config.maxPacket = Config.hdrLen + Config.maxPayload := rfl
theorem Config.rxCap_eq : Config.rxCap = Config.maxPacket := rfl
theorem Config.payCap_eq : Config.payCap = Config.maxPayload := rfl

/-- R60: an offset of `ADDR_WIDTH` bits is below 0x4000. -/
theorem Config.windowBytes_eq : Config.windowBytes = 0x4000 := rfl

/-- A register's value is below 2^32: the bound of `BitVec.isLt` with `REG_WIDTH` in numbers. -/
theorem Word.toNat_lt (w : Word) : w.toNat < 4294967296 := w.isLt

end Sys2Proof
end

