-- ==== Sys2Proof/Laws/Decode.lean ====
section
/-! SUPPORT. The register map read both ways (spec/10_state.md R22), and what the decoder gives for a full access to a
mapped target (spec/30_encoding.md R87) and for one that is not. -/

namespace Sys2Proof.Machine

theorem Reg.off_lt (r : Reg) : r.off ≤ 0x054 := by cases r <;> decide

theorem Reg.off_aligned (r : Reg) : r.off % 4 = 0 := by cases r <;> decide

theorem regAt_off (r : Reg) : regAt r.off = some r := by cases r <;> decide

theorem regAt_some {off : Nat} {r : Reg} (h : regAt off = some r) : r.off = off := by
  have := List.find?_some h
  simpa using this

/-- A mapped target is at its own offset. -/
theorem targetAt_off {g : Target} (h : g.inRange = true) : targetAt g.off = some g := by
  cases g with
  | reg r =>
    have := r.off_lt
    simp [targetAt, Target.off, rxbufBase, regAt_off, show r.off < 0x400 by omega]
  | rxbuf i =>
    simp only [Target.inRange, Config.rxCap, decide_eq_true_eq] at h
    simp [targetAt, Target.off, rxbufBase, Config.rxCap, show ¬(1024 + 4 * i < 1024) by omega,
      show 1024 + 4 * i < 1024 + 4 * 260 by omega]
  | pay i =>
    simp only [Target.inRange, Config.payCap, decide_eq_true_eq] at h
    simp [targetAt, Target.off, rxbufBase, payBase, Config.rxCap, Config.payCap, show ¬(4096 + 4 * i < 1024) by omega,
      show ¬(4096 + 4 * i < 1024 + 4 * 260) by omega, show 4096 + 4 * i < 4096 + 4 * 255 by omega]
  | raw i =>
    simp only [Target.inRange, Config.maxPacket, decide_eq_true_eq] at h
    simp [targetAt, Target.off, rxbufBase, payBase, rawBase, Config.rxCap, Config.payCap, Config.maxPacket,
      show ¬(8192 + 4 * i < 1024) by omega, show ¬(8192 + 4 * i < 1024 + 4 * 260) by omega,
      show ¬(8192 + 4 * i < 4096) by omega, show ¬(8192 + 4 * i < 4096 + 4 * 255) by omega,
      show 8192 + 4 * i < 8192 + 4 * 260 by omega]

/-- What an aligned offset selects is a mapped target, at that offset. -/
theorem targetAt_some {off : Nat} {g : Target} (ha : off % 4 = 0) (h : targetAt off = some g) :
    g.off = off ∧ g.inRange = true := by
  unfold targetAt at h
  simp only [rxbufBase, payBase, rawBase, Config.rxCap, Config.payCap, Config.maxPacket] at h
  split at h
  · simp only [Option.map_eq_some_iff] at h
    obtain ⟨r, hr, rfl⟩ := h
    exact ⟨regAt_some hr, rfl⟩
  · split at h
    · cases h
      simp [Target.off, Target.inRange, rxbufBase, Config.rxCap]
      omega
    · split at h
      · cases h
      · split at h
        · cases h
          simp [Target.off, Target.inRange, payBase, Config.payCap]
          omega
        · split at h
          · cases h
          · split at h
            · cases h
              simp [Target.off, Target.inRange, rawBase, Config.maxPacket]
              omega
            · cases h

theorem Target.off_aligned (g : Target) : g.off % 4 = 0 := by
  cases g <;> simp [Target.off, rxbufBase, payBase, rawBase, Reg.off_aligned]

theorem Target.off_lt {g : Target} (h : g.inRange = true) : g.off < Config.windowBytes := by
  cases g with
  | reg r => have := r.off_lt; simp [Target.off, Config.windowBytes_eq]; omega
  | _ i =>
    simp [Target.inRange, Config.rxCap, Config.payCap, Config.maxPacket] at h
    simp [Target.off, Config.windowBytes_eq, rxbufBase, payBase, rawBase]
    omega

/-- A full access to a mapped target: its read or write operation (R87). -/
theorem decode_target {g : Target} (h : g.inRange = true) (k : Kind) :
    decode { kind := k, access := .word 0xF#4, off := g.off } =
      match k with
      | .read => .ok (decodeRead g)
      | .write d => .ok (decodeWrite d g) := by
  have hl := Target.off_lt h
  simp only [decode, Txn.decoded, Access.full, aligned, targetAt_off h, Target.off_aligned, hl]
  cases k <;> simp

/-- What the decoder says of any transaction, once. -/
theorem decode_cases (t : Txn) :
    (Config.windowBytes ≤ t.off ∧ decode t = .error (.offsetOutside t.off)) ∨
    (t.off < Config.windowBytes ∧ t.busError.isSome = true ∧ decode t = .ok (.busError t)) ∨
    (t.off < Config.windowBytes ∧ t.access = .word 0xF#4 ∧ ∃ g : Target, g.inRange = true ∧ g.off = t.off ∧
      targetAt t.off = some g ∧
      decode t = match t.kind with
        | .read => .ok (decodeRead g)
        | .write d => .ok (decodeWrite d g)) := by
  by_cases hl : t.off < Config.windowBytes
  · right
    by_cases ha : t.access.full = true ∧ aligned t.off = true
    · cases hg : targetAt t.off with
      | none =>
        left
        simp [hl, Txn.busError, decode, Txn.decoded, ha.1, ha.2, hg]
      | some g =>
        right
        have hal : t.off % 4 = 0 := by simpa [aligned] using ha.2
        obtain ⟨ho, hr⟩ := targetAt_some hal hg
        have hf : t.access = .word 0xF#4 := by
          have := ha.1
          cases hacc : t.access <;> simp_all [Access.full]
        refine ⟨hl, hf, g, hr, ho, rfl, ?_⟩
        simp only [decode, Txn.decoded, ha.1, ha.2, hg, hl]
        cases t.kind <;> simp
    · left
      have hne : (!t.access.full || !aligned t.off) = true := by
        rw [not_and_or] at ha
        rcases ha with h | h <;> simp [h]
      refine ⟨hl, by simp [Txn.busError, hne], ?_⟩
      simp only [decode, Txn.decoded, hl, hne]
      simp
  · left
    exact ⟨by omega, by simp [decode, Txn.decoded, hl]⟩

/-- A word whose MBZ is zero is its OPC. -/
theorem toNat_of_mbz {w : Word} (h : cmdMbz w = 0) : w.toNat = (cmdOpc w).toNat := by
  have h' := congrArg BitVec.toNat h
  have := Word.toNat_lt w
  simp [cmdMbz, Nat.shiftRight_eq_div_pow] at h'
  simp [cmdOpc]
  omega

end Sys2Proof.Machine
end

