-- ==== Sys2Proof/Laws/Memory.lean ====
section
/-! SUPPORT. The laws of the byte RAMs: read after write, a write leaves every other byte alone, and every memory
operation keeps the canonical form. -/

namespace Sys2Proof.Machine

@[simp] theorem Memory.lookup_nil (i : Nat) : Memory.lookup [] i = none := rfl

@[simp] theorem Memory.lookup_write_same (m : Memory) (i : Nat) (b : Byte) : (m.write i b).lookup i = some b := by
  induction m with
  | nil => simp [Memory.write, Memory.lookup]
  | cons c m ih =>
    obtain ⟨k, v⟩ := c
    simp only [Memory.write]
    split
    · simp [Memory.lookup]
    · split
      · simp [Memory.lookup]
      · rename_i _ hne
        simp [Memory.lookup, Ne.symm hne, ih]

theorem Memory.lookup_write_other (m : Memory) {i j : Nat} (b : Byte) (h : j ≠ i) :
    (m.write i b).lookup j = m.lookup j := by
  induction m with
  | nil => simp [Memory.write, Memory.lookup, Ne.symm h]
  | cons c m ih =>
    obtain ⟨k, v⟩ := c
    simp only [Memory.write]
    split
    · simp [Memory.lookup, Ne.symm h]
    · split
      · rename_i _ he
        simp [Memory.lookup, Ne.symm h, ← he]
      · simp [Memory.lookup, ih]

theorem Memory.lookup_write (m : Memory) (i j : Nat) (b : Byte) :
    (m.write i b).lookup j = if j = i then some b else m.lookup j := by
  split
  · subst j; simp
  · exact Memory.lookup_write_other m b ‹_›

theorem Memory.lookup_writeAll (m : Memory) (i j : Nat) (bs : List Byte) :
    (m.writeAll i bs).lookup j = if i ≤ j ∧ j < i + bs.length then bs[j - i]? else m.lookup j := by
  induction bs generalizing m i with
  | nil => simp [Memory.writeAll]
  | cons b bs ih =>
    rw [Memory.writeAll, ih, Memory.lookup_write]
    rcases Nat.lt_trichotomy j i with h | rfl | h
    · simp [show ¬(i + 1 ≤ j) by omega, show ¬(i ≤ j) by omega, show j ≠ i by omega]
    · simp
    · obtain ⟨d, rfl⟩ := Nat.exists_eq_add_of_lt h
      by_cases hd : d < bs.length
      · simp [hd, show i + 1 ≤ i + d + 1 by omega, show i + d + 1 < i + 1 + bs.length by omega,
          show i + d + 1 < i + (bs.length + 1) by omega, show i + d + 1 - (i + 1) = d by omega,
          show i + d + 1 - i = d + 1 by omega, show i ≤ i + d + 1 by omega]
      · simp [show ¬(i + d + 1 < i + 1 + bs.length) by omega, show ¬(i + d + 1 < i + (bs.length + 1)) by omega,
          show i + d + 1 ≠ i by omega]

/-- Writing the same byte again changes nothing. -/
theorem Memory.write_write (m : Memory) (i : Nat) (b : Byte) : (m.write i b).write i b = m.write i b := by
  induction m with
  | nil => simp [Memory.write]
  | cons c m ih =>
    obtain ⟨k, v⟩ := c
    simp only [Memory.write]
    split
    · simp [Memory.write]
    · split
      · simp [Memory.write]
      · simp_all [Memory.write]

/-! ## The canonical form -/

theorem Memory.risesFrom_mono {lo lo' : Nat} (m : Memory) (h : lo' ≤ lo) (hm : Memory.risesFrom lo m = true) :
    Memory.risesFrom lo' m = true := by
  cases m with
  | nil => rfl
  | cons c m =>
    simp only [Memory.risesFrom, Bool.and_eq_true, decide_eq_true_eq] at hm ⊢
    exact ⟨by omega, hm.2⟩

theorem Memory.risesFrom_write (m : Memory) (lo i : Nat) (b : Byte) (hi : lo ≤ i)
    (hm : Memory.risesFrom lo m = true) : Memory.risesFrom lo (m.write i b) = true := by
  induction m generalizing lo with
  | nil => simp [Memory.write, Memory.risesFrom, hi]
  | cons c m ih =>
    obtain ⟨k, v⟩ := c
    simp only [Memory.risesFrom, Bool.and_eq_true, decide_eq_true_eq] at hm
    simp only [Memory.write]
    split
    · simp [Memory.risesFrom, hi, hm.2]; omega
    · split
      · rename_i _ he
        subst he
        simp [Memory.risesFrom, hi, hm.2]
      · simp [Memory.risesFrom, hm.1, ih (k + 1) (by omega) hm.2]

theorem Memory.all_write (m : Memory) (i : Nat) (b : Byte) (p : Host.Cell → Bool) (hp : p (i, b) = true)
    (hm : m.all p = true) : (m.write i b).all p = true := by
  induction m with
  | nil => simp [Memory.write, hp]
  | cons c m ih =>
    simp only [List.all_cons, Bool.and_eq_true] at hm
    simp only [Memory.write]
    split
    · simpa [hp] using hm
    · split
      · simpa [hp] using hm.2
      · simpa [hm.1] using ih hm.2

@[simp] theorem Memory.wf_nil (cap : Nat) : Memory.wf cap [] = true := rfl

/-- A write below the capacity keeps the canonical form. -/
theorem Memory.wf_write {cap : Nat} {m : Memory} {i : Nat} (b : Byte) (hi : i < cap) (hm : Memory.wf cap m = true) :
    Memory.wf cap (m.write i b) = true := by
  simp only [Memory.wf, Bool.and_eq_true] at hm ⊢
  exact ⟨Memory.risesFrom_write m 0 i b (Nat.zero_le _) hm.1, Memory.all_write m i b _ (by simpa using hi) hm.2⟩

/-- So does a run of writes that ends at or below it. -/
theorem Memory.wf_writeAll {cap : Nat} {m : Memory} (i : Nat) (bs : List Byte) (hi : i + bs.length ≤ cap)
    (hm : Memory.wf cap m = true) : Memory.wf cap (m.writeAll i bs) = true := by
  induction bs generalizing m i with
  | nil => exact hm
  | cons b bs ih =>
    simp only [List.length_cons] at hi
    exact ih (i + 1) (by omega) (Memory.wf_write b (by omega) hm)

theorem State.reset_rxbuf_wf : Memory.wf Config.rxCap State.reset.rxbuf = true := rfl

theorem State.reset_pay_wf : Memory.wf Config.payCap State.reset.pay = true := rfl

theorem State.appendByte_rxbuf_wf {s : State} (b : Byte) (h : Memory.wf Config.rxCap s.rxbuf = true) :
    Memory.wf Config.rxCap (s.appendByte b).rxbuf = true := by
  unfold State.appendByte
  split
  · exact Memory.wf_write b ‹_› h
  · exact h

theorem State.storePay_pay_wf {s : State} {i : Nat} (b : Byte) (hi : i < Config.payCap)
    (h : Memory.wf Config.payCap s.pay = true) : Memory.wf Config.payCap (s.storePay i b).pay = true :=
  Memory.wf_write b hi h

@[simp] theorem rxBytes_length (s : State) (i n : Nat) : (rxBytes s i n).length = n := by simp [rxBytes]

@[simp] theorem payBytes_length (s : State) (n : Nat) : (payBytes s n).length = n := by simp [payBytes]

theorem State.copyPayload_pay_wf {s : State} {n : Nat} (hn : n ≤ Config.payCap)
    (h : Memory.wf Config.payCap s.pay = true) : Memory.wf Config.payCap (s.copyPayload n).pay = true :=
  Memory.wf_writeAll 0 _ (by simpa using hn) h

/-! ## What the windows hold after each operation -/

theorem payByte_storePay (s : State) (i j : Nat) (b : Byte) :
    payByte (s.storePay i b) j = if j = i then b else payByte s j := by
  unfold payByte State.storePay
  simp only [Memory.lookup_write]
  split <;> rfl

/-- PARSE copies `RXBUF[5..5+n)` to `PAY[0..n)` and leaves the rest of PAY (R140). -/
theorem payByte_copyPayload (s : State) (n j : Nat) :
    payByte (s.copyPayload n) j = if j < n then rxByte s (Config.hdrLen + j) else payByte s j := by
  unfold payByte State.copyPayload
  simp only [Memory.lookup_writeAll, rxBytes_length, Nat.zero_le, true_and, Nat.zero_add, Nat.sub_zero]
  split
  · simp [rxBytes, List.getElem?_range ‹_›]
  · rfl

/-- An append that is not dropped writes at RXLEN only (R133). -/
theorem rxByte_appendByte (s : State) (b : Byte) (h : s.rxlen.toNat < Config.rxCap) (j : Nat) :
    rxByte (s.appendByte b) j = if j = s.rxlen.toNat then b else rxByte s j := by
  unfold rxByte State.appendByte
  rw [if_pos h]
  simp only [Memory.lookup_write]
  split <;> rfl

end Sys2Proof.Machine
end

