-- ==== Sys2Proof/Laws/State.lean ====
section
/-! SUPPORT. Beside State: what each named update does to each field, one lemma a field, so that no later proof unfolds a
record update. -/

namespace Sys2Proof.Machine

variable (s : State)

/-! ## writeDone -/

@[simp] theorem State.writeDone_arg : s.writeDone.arg = s.arg := rfl
@[simp] theorem State.writeDone_status : s.writeDone.status = s.status := rfl
@[simp] theorem State.writeDone_need : s.writeDone.need = s.need := rfl
@[simp] theorem State.writeDone_hdr : s.writeDone.hdr = s.hdr := rfl
@[simp] theorem State.writeDone_hcrc : s.writeDone.hcrc = s.hcrc := rfl
@[simp] theorem State.writeDone_badinfo : s.writeDone.badinfo = s.badinfo := rfl
@[simp] theorem State.writeDone_expect : s.writeDone.expect = s.expect := rfl
@[simp] theorem State.writeDone_rxlen : s.writeDone.rxlen = s.rxlen := rfl
@[simp] theorem State.writeDone_calcCrc : s.writeDone.calcCrc = s.calcCrc := rfl
@[simp] theorem State.writeDone_lrcSum : s.writeDone.lrcSum = s.lrcSum := rfl
@[simp] theorem State.writeDone_crcAcc : s.writeDone.crcAcc = s.crcAcc := rfl
@[simp] theorem State.writeDone_tovIn : s.writeDone.tovIn = s.tovIn := rfl
@[simp] theorem State.writeDone_tovLatest : s.writeDone.tovLatest = s.tovLatest := rfl
@[simp] theorem State.writeDone_tovSnap : s.writeDone.tovSnap = s.tovSnap := rfl
@[simp] theorem State.writeDone_rxbuf : s.writeDone.rxbuf = s.rxbuf := rfl
@[simp] theorem State.writeDone_pay : s.writeDone.pay = s.pay := rfl
@[simp] theorem State.writeDone_inReset : s.writeDone.inReset = s.inReset := rfl
@[simp] theorem State.writeDone_pending : s.writeDone.pending = s.pending := rfl
@[simp] theorem State.writeDone_resp : s.writeDone.resp = some .writeDone := rfl
@[simp] theorem State.writeDone_draws : s.writeDone.draws = s.draws := rfl

/-! ## readDone -/

@[simp] theorem State.readDone_arg (w : Word) (n : Nat) : (s.readDone w n).arg = s.arg := rfl
@[simp] theorem State.readDone_status (w : Word) (n : Nat) : (s.readDone w n).status = s.status := rfl
@[simp] theorem State.readDone_need (w : Word) (n : Nat) : (s.readDone w n).need = s.need := rfl
@[simp] theorem State.readDone_hdr (w : Word) (n : Nat) : (s.readDone w n).hdr = s.hdr := rfl
@[simp] theorem State.readDone_hcrc (w : Word) (n : Nat) : (s.readDone w n).hcrc = s.hcrc := rfl
@[simp] theorem State.readDone_badinfo (w : Word) (n : Nat) : (s.readDone w n).badinfo = s.badinfo := rfl
@[simp] theorem State.readDone_expect (w : Word) (n : Nat) : (s.readDone w n).expect = s.expect := rfl
@[simp] theorem State.readDone_rxlen (w : Word) (n : Nat) : (s.readDone w n).rxlen = s.rxlen := rfl
@[simp] theorem State.readDone_calcCrc (w : Word) (n : Nat) : (s.readDone w n).calcCrc = s.calcCrc := rfl
@[simp] theorem State.readDone_lrcSum (w : Word) (n : Nat) : (s.readDone w n).lrcSum = s.lrcSum := rfl
@[simp] theorem State.readDone_crcAcc (w : Word) (n : Nat) : (s.readDone w n).crcAcc = s.crcAcc := rfl
@[simp] theorem State.readDone_tovIn (w : Word) (n : Nat) : (s.readDone w n).tovIn = s.tovIn := rfl
@[simp] theorem State.readDone_tovLatest (w : Word) (n : Nat) : (s.readDone w n).tovLatest = s.tovLatest := rfl
@[simp] theorem State.readDone_tovSnap (w : Word) (n : Nat) : (s.readDone w n).tovSnap = s.tovSnap := rfl
@[simp] theorem State.readDone_rxbuf (w : Word) (n : Nat) : (s.readDone w n).rxbuf = s.rxbuf := rfl
@[simp] theorem State.readDone_pay (w : Word) (n : Nat) : (s.readDone w n).pay = s.pay := rfl
@[simp] theorem State.readDone_inReset (w : Word) (n : Nat) : (s.readDone w n).inReset = s.inReset := rfl
@[simp] theorem State.readDone_pending (w : Word) (n : Nat) : (s.readDone w n).pending = s.pending := rfl
@[simp] theorem State.readDone_resp (w : Word) (n : Nat) : (s.readDone w n).resp = some (.readData w) := rfl
@[simp] theorem State.readDone_draws (w : Word) (n : Nat) : (s.readDone w n).draws = s.draws + n := rfl

/-! ## resetRegisters -/

@[simp] theorem State.resetRegisters_arg : s.resetRegisters.arg = State.reset.arg := rfl
@[simp] theorem State.resetRegisters_status : s.resetRegisters.status = State.reset.status := rfl
@[simp] theorem State.resetRegisters_need : s.resetRegisters.need = State.reset.need := rfl
@[simp] theorem State.resetRegisters_hdr : s.resetRegisters.hdr = State.reset.hdr := rfl
@[simp] theorem State.resetRegisters_hcrc : s.resetRegisters.hcrc = State.reset.hcrc := rfl
@[simp] theorem State.resetRegisters_badinfo : s.resetRegisters.badinfo = State.reset.badinfo := rfl
@[simp] theorem State.resetRegisters_expect : s.resetRegisters.expect = State.reset.expect := rfl
@[simp] theorem State.resetRegisters_rxlen : s.resetRegisters.rxlen = State.reset.rxlen := rfl
@[simp] theorem State.resetRegisters_calcCrc : s.resetRegisters.calcCrc = State.reset.calcCrc := rfl
@[simp] theorem State.resetRegisters_lrcSum : s.resetRegisters.lrcSum = State.reset.lrcSum := rfl
@[simp] theorem State.resetRegisters_crcAcc : s.resetRegisters.crcAcc = State.reset.crcAcc := rfl
@[simp] theorem State.resetRegisters_tovIn : s.resetRegisters.tovIn = State.reset.tovIn := rfl
@[simp] theorem State.resetRegisters_tovLatest : s.resetRegisters.tovLatest = State.reset.tovLatest := rfl
@[simp] theorem State.resetRegisters_tovSnap : s.resetRegisters.tovSnap = State.reset.tovSnap := rfl
@[simp] theorem State.resetRegisters_rxbuf : s.resetRegisters.rxbuf = s.rxbuf := rfl
@[simp] theorem State.resetRegisters_pay : s.resetRegisters.pay = s.pay := rfl
@[simp] theorem State.resetRegisters_inReset : s.resetRegisters.inReset = s.inReset := rfl
@[simp] theorem State.resetRegisters_pending : s.resetRegisters.pending = s.pending := rfl
@[simp] theorem State.resetRegisters_resp : s.resetRegisters.resp = s.resp := rfl
@[simp] theorem State.resetRegisters_draws : s.resetRegisters.draws = s.draws := rfl

/-! ## assertReset -/

@[simp] theorem State.assertReset_arg : s.assertReset.arg = State.reset.arg := rfl
@[simp] theorem State.assertReset_status : s.assertReset.status = State.reset.status := rfl
@[simp] theorem State.assertReset_need : s.assertReset.need = State.reset.need := rfl
@[simp] theorem State.assertReset_hdr : s.assertReset.hdr = State.reset.hdr := rfl
@[simp] theorem State.assertReset_hcrc : s.assertReset.hcrc = State.reset.hcrc := rfl
@[simp] theorem State.assertReset_badinfo : s.assertReset.badinfo = State.reset.badinfo := rfl
@[simp] theorem State.assertReset_expect : s.assertReset.expect = State.reset.expect := rfl
@[simp] theorem State.assertReset_rxlen : s.assertReset.rxlen = State.reset.rxlen := rfl
@[simp] theorem State.assertReset_calcCrc : s.assertReset.calcCrc = State.reset.calcCrc := rfl
@[simp] theorem State.assertReset_lrcSum : s.assertReset.lrcSum = State.reset.lrcSum := rfl
@[simp] theorem State.assertReset_crcAcc : s.assertReset.crcAcc = State.reset.crcAcc := rfl
@[simp] theorem State.assertReset_tovIn : s.assertReset.tovIn = State.reset.tovIn := rfl
@[simp] theorem State.assertReset_tovLatest : s.assertReset.tovLatest = State.reset.tovLatest := rfl
@[simp] theorem State.assertReset_tovSnap : s.assertReset.tovSnap = State.reset.tovSnap := rfl
@[simp] theorem State.assertReset_rxbuf : s.assertReset.rxbuf = s.rxbuf := rfl
@[simp] theorem State.assertReset_pay : s.assertReset.pay = s.pay := rfl
@[simp] theorem State.assertReset_inReset : s.assertReset.inReset = true := rfl
@[simp] theorem State.assertReset_pending : s.assertReset.pending = s.pending := rfl
@[simp] theorem State.assertReset_resp : s.assertReset.resp = none := rfl
@[simp] theorem State.assertReset_draws : s.assertReset.draws = s.draws := rfl

/-! ## releaseReset -/

@[simp] theorem State.releaseReset_arg : s.releaseReset.arg = s.arg := rfl
@[simp] theorem State.releaseReset_status : s.releaseReset.status = s.status := rfl
@[simp] theorem State.releaseReset_need : s.releaseReset.need = s.need := rfl
@[simp] theorem State.releaseReset_hdr : s.releaseReset.hdr = s.hdr := rfl
@[simp] theorem State.releaseReset_hcrc : s.releaseReset.hcrc = s.hcrc := rfl
@[simp] theorem State.releaseReset_badinfo : s.releaseReset.badinfo = s.badinfo := rfl
@[simp] theorem State.releaseReset_expect : s.releaseReset.expect = s.expect := rfl
@[simp] theorem State.releaseReset_rxlen : s.releaseReset.rxlen = s.rxlen := rfl
@[simp] theorem State.releaseReset_calcCrc : s.releaseReset.calcCrc = s.calcCrc := rfl
@[simp] theorem State.releaseReset_lrcSum : s.releaseReset.lrcSum = s.lrcSum := rfl
@[simp] theorem State.releaseReset_crcAcc : s.releaseReset.crcAcc = s.crcAcc := rfl
@[simp] theorem State.releaseReset_tovIn : s.releaseReset.tovIn = s.tovIn := rfl
@[simp] theorem State.releaseReset_tovLatest : s.releaseReset.tovLatest = s.tovLatest := rfl
@[simp] theorem State.releaseReset_tovSnap : s.releaseReset.tovSnap = s.tovSnap := rfl
@[simp] theorem State.releaseReset_rxbuf : s.releaseReset.rxbuf = s.rxbuf := rfl
@[simp] theorem State.releaseReset_pay : s.releaseReset.pay = s.pay := rfl
@[simp] theorem State.releaseReset_inReset : s.releaseReset.inReset = false := rfl
@[simp] theorem State.releaseReset_pending : s.releaseReset.pending = s.pending := rfl
@[simp] theorem State.releaseReset_resp : s.releaseReset.resp = s.resp := rfl
@[simp] theorem State.releaseReset_draws : s.releaseReset.draws = s.draws := rfl

/-! ## issueNext -/

@[simp] theorem State.issueNext_arg (t : Txn) : (s.issueNext t).arg = s.arg := rfl
@[simp] theorem State.issueNext_status (t : Txn) : (s.issueNext t).status = s.status := rfl
@[simp] theorem State.issueNext_need (t : Txn) : (s.issueNext t).need = s.need := rfl
@[simp] theorem State.issueNext_hdr (t : Txn) : (s.issueNext t).hdr = s.hdr := rfl
@[simp] theorem State.issueNext_hcrc (t : Txn) : (s.issueNext t).hcrc = s.hcrc := rfl
@[simp] theorem State.issueNext_badinfo (t : Txn) : (s.issueNext t).badinfo = s.badinfo := rfl
@[simp] theorem State.issueNext_expect (t : Txn) : (s.issueNext t).expect = s.expect := rfl
@[simp] theorem State.issueNext_rxlen (t : Txn) : (s.issueNext t).rxlen = s.rxlen := rfl
@[simp] theorem State.issueNext_calcCrc (t : Txn) : (s.issueNext t).calcCrc = s.calcCrc := rfl
@[simp] theorem State.issueNext_lrcSum (t : Txn) : (s.issueNext t).lrcSum = s.lrcSum := rfl
@[simp] theorem State.issueNext_crcAcc (t : Txn) : (s.issueNext t).crcAcc = s.crcAcc := rfl
@[simp] theorem State.issueNext_tovIn (t : Txn) : (s.issueNext t).tovIn = s.tovIn := rfl
@[simp] theorem State.issueNext_tovLatest (t : Txn) : (s.issueNext t).tovLatest = s.tovLatest := rfl
@[simp] theorem State.issueNext_tovSnap (t : Txn) : (s.issueNext t).tovSnap = s.tovSnap := rfl
@[simp] theorem State.issueNext_rxbuf (t : Txn) : (s.issueNext t).rxbuf = s.rxbuf := rfl
@[simp] theorem State.issueNext_pay (t : Txn) : (s.issueNext t).pay = s.pay := rfl
@[simp] theorem State.issueNext_inReset (t : Txn) : (s.issueNext t).inReset = false := rfl
@[simp] theorem State.issueNext_pending (t : Txn) : (s.issueNext t).pending = .txn t :: s.pending := rfl
@[simp] theorem State.issueNext_resp (t : Txn) : (s.issueNext t).resp = s.resp := rfl
@[simp] theorem State.issueNext_draws (t : Txn) : (s.issueNext t).draws = s.draws := rfl

/-! ## storePay -/

@[simp] theorem State.storePay_arg (i : Nat) (b : Byte) : (s.storePay i b).arg = s.arg := rfl
@[simp] theorem State.storePay_status (i : Nat) (b : Byte) : (s.storePay i b).status = s.status.clearCrc := rfl
@[simp] theorem State.storePay_need (i : Nat) (b : Byte) : (s.storePay i b).need = s.need := rfl
@[simp] theorem State.storePay_hdr (i : Nat) (b : Byte) : (s.storePay i b).hdr = s.hdr := rfl
@[simp] theorem State.storePay_hcrc (i : Nat) (b : Byte) : (s.storePay i b).hcrc = s.hcrc := rfl
@[simp] theorem State.storePay_badinfo (i : Nat) (b : Byte) : (s.storePay i b).badinfo = s.badinfo := rfl
@[simp] theorem State.storePay_expect (i : Nat) (b : Byte) : (s.storePay i b).expect = s.expect := rfl
@[simp] theorem State.storePay_rxlen (i : Nat) (b : Byte) : (s.storePay i b).rxlen = s.rxlen := rfl
@[simp] theorem State.storePay_calcCrc (i : Nat) (b : Byte) : (s.storePay i b).calcCrc = s.calcCrc := rfl
@[simp] theorem State.storePay_lrcSum (i : Nat) (b : Byte) : (s.storePay i b).lrcSum = s.lrcSum := rfl
@[simp] theorem State.storePay_crcAcc (i : Nat) (b : Byte) : (s.storePay i b).crcAcc = s.crcAcc := rfl
@[simp] theorem State.storePay_tovIn (i : Nat) (b : Byte) : (s.storePay i b).tovIn = s.tovIn := rfl
@[simp] theorem State.storePay_tovLatest (i : Nat) (b : Byte) : (s.storePay i b).tovLatest = s.tovLatest := rfl
@[simp] theorem State.storePay_tovSnap (i : Nat) (b : Byte) : (s.storePay i b).tovSnap = s.tovSnap := rfl
@[simp] theorem State.storePay_rxbuf (i : Nat) (b : Byte) : (s.storePay i b).rxbuf = s.rxbuf := rfl
@[simp] theorem State.storePay_pay (i : Nat) (b : Byte) : (s.storePay i b).pay = s.pay.write i b := rfl
@[simp] theorem State.storePay_inReset (i : Nat) (b : Byte) : (s.storePay i b).inReset = s.inReset := rfl
@[simp] theorem State.storePay_pending (i : Nat) (b : Byte) : (s.storePay i b).pending = s.pending := rfl
@[simp] theorem State.storePay_resp (i : Nat) (b : Byte) : (s.storePay i b).resp = s.resp := rfl
@[simp] theorem State.storePay_draws (i : Nat) (b : Byte) : (s.storePay i b).draws = s.draws := rfl

/-! ## loadHeader -/

@[simp] theorem State.loadHeader_arg (w : Wire) : (s.loadHeader w).arg = s.arg := rfl
@[simp] theorem State.loadHeader_status (w : Wire) : (s.loadHeader w).status = s.status := rfl
@[simp] theorem State.loadHeader_need (w : Wire) : (s.loadHeader w).need = s.need := rfl
@[simp] theorem State.loadHeader_hdr (w : Wire) : (s.loadHeader w).hdr = hdrOfWire w := rfl
@[simp] theorem State.loadHeader_hcrc (w : Wire) : (s.loadHeader w).hcrc = hcrcOfWire w := rfl
@[simp] theorem State.loadHeader_badinfo (w : Wire) : (s.loadHeader w).badinfo = s.badinfo := rfl
@[simp] theorem State.loadHeader_expect (w : Wire) : (s.loadHeader w).expect = s.expect := rfl
@[simp] theorem State.loadHeader_rxlen (w : Wire) : (s.loadHeader w).rxlen = s.rxlen := rfl
@[simp] theorem State.loadHeader_calcCrc (w : Wire) : (s.loadHeader w).calcCrc = s.calcCrc := rfl
@[simp] theorem State.loadHeader_lrcSum (w : Wire) : (s.loadHeader w).lrcSum = s.lrcSum := rfl
@[simp] theorem State.loadHeader_crcAcc (w : Wire) : (s.loadHeader w).crcAcc = s.crcAcc := rfl
@[simp] theorem State.loadHeader_tovIn (w : Wire) : (s.loadHeader w).tovIn = s.tovIn := rfl
@[simp] theorem State.loadHeader_tovLatest (w : Wire) : (s.loadHeader w).tovLatest = s.tovLatest := rfl
@[simp] theorem State.loadHeader_tovSnap (w : Wire) : (s.loadHeader w).tovSnap = s.tovSnap := rfl
@[simp] theorem State.loadHeader_rxbuf (w : Wire) : (s.loadHeader w).rxbuf = s.rxbuf := rfl
@[simp] theorem State.loadHeader_pay (w : Wire) : (s.loadHeader w).pay = s.pay := rfl
@[simp] theorem State.loadHeader_inReset (w : Wire) : (s.loadHeader w).inReset = s.inReset := rfl
@[simp] theorem State.loadHeader_pending (w : Wire) : (s.loadHeader w).pending = s.pending := rfl
@[simp] theorem State.loadHeader_resp (w : Wire) : (s.loadHeader w).resp = s.resp := rfl
@[simp] theorem State.loadHeader_draws (w : Wire) : (s.loadHeader w).draws = s.draws := rfl

/-! ## takeSnapshot -/

@[simp] theorem State.takeSnapshot_arg : s.takeSnapshot.arg = s.arg := rfl
@[simp] theorem State.takeSnapshot_status : s.takeSnapshot.status = s.status := rfl
@[simp] theorem State.takeSnapshot_need : s.takeSnapshot.need = s.need := rfl
@[simp] theorem State.takeSnapshot_hdr : s.takeSnapshot.hdr = s.hdr := rfl
@[simp] theorem State.takeSnapshot_hcrc : s.takeSnapshot.hcrc = s.hcrc := rfl
@[simp] theorem State.takeSnapshot_badinfo : s.takeSnapshot.badinfo = s.badinfo := rfl
@[simp] theorem State.takeSnapshot_expect : s.takeSnapshot.expect = s.expect := rfl
@[simp] theorem State.takeSnapshot_rxlen : s.takeSnapshot.rxlen = s.rxlen := rfl
@[simp] theorem State.takeSnapshot_calcCrc : s.takeSnapshot.calcCrc = s.calcCrc := rfl
@[simp] theorem State.takeSnapshot_lrcSum : s.takeSnapshot.lrcSum = s.lrcSum := rfl
@[simp] theorem State.takeSnapshot_crcAcc : s.takeSnapshot.crcAcc = s.crcAcc := rfl
@[simp] theorem State.takeSnapshot_tovIn : s.takeSnapshot.tovIn = s.tovIn := rfl
@[simp] theorem State.takeSnapshot_tovLatest : s.takeSnapshot.tovLatest = s.tovLatest := rfl
@[simp] theorem State.takeSnapshot_tovSnap : s.takeSnapshot.tovSnap = s.tovLatest := rfl
@[simp] theorem State.takeSnapshot_rxbuf : s.takeSnapshot.rxbuf = s.rxbuf := rfl
@[simp] theorem State.takeSnapshot_pay : s.takeSnapshot.pay = s.pay := rfl
@[simp] theorem State.takeSnapshot_inReset : s.takeSnapshot.inReset = s.inReset := rfl
@[simp] theorem State.takeSnapshot_pending : s.takeSnapshot.pending = s.pending := rfl
@[simp] theorem State.takeSnapshot_resp : s.takeSnapshot.resp = s.resp := rfl
@[simp] theorem State.takeSnapshot_draws : s.takeSnapshot.draws = s.draws := rfl

/-! ## copyPayload -/

@[simp] theorem State.copyPayload_arg (n : Nat) : (s.copyPayload n).arg = s.arg := rfl
@[simp] theorem State.copyPayload_status (n : Nat) : (s.copyPayload n).status = s.status := rfl
@[simp] theorem State.copyPayload_need (n : Nat) : (s.copyPayload n).need = s.need := rfl
@[simp] theorem State.copyPayload_hdr (n : Nat) : (s.copyPayload n).hdr = s.hdr := rfl
@[simp] theorem State.copyPayload_hcrc (n : Nat) : (s.copyPayload n).hcrc = s.hcrc := rfl
@[simp] theorem State.copyPayload_badinfo (n : Nat) : (s.copyPayload n).badinfo = s.badinfo := rfl
@[simp] theorem State.copyPayload_expect (n : Nat) : (s.copyPayload n).expect = s.expect := rfl
@[simp] theorem State.copyPayload_rxlen (n : Nat) : (s.copyPayload n).rxlen = s.rxlen := rfl
@[simp] theorem State.copyPayload_calcCrc (n : Nat) : (s.copyPayload n).calcCrc = s.calcCrc := rfl
@[simp] theorem State.copyPayload_lrcSum (n : Nat) : (s.copyPayload n).lrcSum = s.lrcSum := rfl
@[simp] theorem State.copyPayload_crcAcc (n : Nat) : (s.copyPayload n).crcAcc = s.crcAcc := rfl
@[simp] theorem State.copyPayload_tovIn (n : Nat) : (s.copyPayload n).tovIn = s.tovIn := rfl
@[simp] theorem State.copyPayload_tovLatest (n : Nat) : (s.copyPayload n).tovLatest = s.tovLatest := rfl
@[simp] theorem State.copyPayload_tovSnap (n : Nat) : (s.copyPayload n).tovSnap = s.tovSnap := rfl
@[simp] theorem State.copyPayload_rxbuf (n : Nat) : (s.copyPayload n).rxbuf = s.rxbuf := rfl
@[simp] theorem State.copyPayload_pay (n : Nat) : (s.copyPayload n).pay = s.pay.writeAll 0 (rxBytes s Config.hdrLen n) :=
  rfl
@[simp] theorem State.copyPayload_inReset (n : Nat) : (s.copyPayload n).inReset = s.inReset := rfl
@[simp] theorem State.copyPayload_pending (n : Nat) : (s.copyPayload n).pending = s.pending := rfl
@[simp] theorem State.copyPayload_resp (n : Nat) : (s.copyPayload n).resp = s.resp := rfl
@[simp] theorem State.copyPayload_draws (n : Nat) : (s.copyPayload n).draws = s.draws := rfl

/-! ## recordOutcome -/

@[simp] theorem State.recordOutcome_arg (r : Result) (c : BadCause) (hv pv : Bool) (n : Nat) (a b : Byte) : (s.recordOutcome r c hv pv n a b).arg = s.arg :=
  rfl
@[simp] theorem State.recordOutcome_status (r : Result) (c : BadCause) (hv pv : Bool) (n : Nat) (a b : Byte) : (s.recordOutcome r c hv pv n a b).status = (s.status.setOutcome r c hv pv).clearCrc :=
  rfl
@[simp] theorem State.recordOutcome_need (r : Result) (c : BadCause) (hv pv : Bool) (n : Nat) (a b : Byte) : (s.recordOutcome r c hv pv n a b).need = BitVec.ofNat 9 n :=
  rfl
@[simp] theorem State.recordOutcome_hdr (r : Result) (c : BadCause) (hv pv : Bool) (n : Nat) (a b : Byte) : (s.recordOutcome r c hv pv n a b).hdr = s.hdr :=
  rfl
@[simp] theorem State.recordOutcome_hcrc (r : Result) (c : BadCause) (hv pv : Bool) (n : Nat) (a b : Byte) : (s.recordOutcome r c hv pv n a b).hcrc = s.hcrc :=
  rfl
@[simp] theorem State.recordOutcome_badinfo (r : Result) (c : BadCause) (hv pv : Bool) (n : Nat) (a b : Byte) : (s.recordOutcome r c hv pv n a b).badinfo = { a := a, b := b } :=
  rfl
@[simp] theorem State.recordOutcome_expect (r : Result) (c : BadCause) (hv pv : Bool) (n : Nat) (a b : Byte) : (s.recordOutcome r c hv pv n a b).expect = s.expect :=
  rfl
@[simp] theorem State.recordOutcome_rxlen (r : Result) (c : BadCause) (hv pv : Bool) (n : Nat) (a b : Byte) : (s.recordOutcome r c hv pv n a b).rxlen = s.rxlen :=
  rfl
@[simp] theorem State.recordOutcome_calcCrc (r : Result) (c : BadCause) (hv pv : Bool) (n : Nat) (a b : Byte) : (s.recordOutcome r c hv pv n a b).calcCrc = s.calcCrc :=
  rfl
@[simp] theorem State.recordOutcome_lrcSum (r : Result) (c : BadCause) (hv pv : Bool) (n : Nat) (a b : Byte) : (s.recordOutcome r c hv pv n a b).lrcSum = s.lrcSum :=
  rfl
@[simp] theorem State.recordOutcome_crcAcc (r : Result) (c : BadCause) (hv pv : Bool) (n : Nat) (a b : Byte) : (s.recordOutcome r c hv pv n a b).crcAcc = s.crcAcc :=
  rfl
@[simp] theorem State.recordOutcome_tovIn (r : Result) (c : BadCause) (hv pv : Bool) (n : Nat) (a b : Byte) : (s.recordOutcome r c hv pv n a b).tovIn = s.tovIn :=
  rfl
@[simp] theorem State.recordOutcome_tovLatest (r : Result) (c : BadCause) (hv pv : Bool) (n : Nat) (a b : Byte) : (s.recordOutcome r c hv pv n a b).tovLatest = s.tovLatest :=
  rfl
@[simp] theorem State.recordOutcome_tovSnap (r : Result) (c : BadCause) (hv pv : Bool) (n : Nat) (a b : Byte) : (s.recordOutcome r c hv pv n a b).tovSnap = s.tovSnap :=
  rfl
@[simp] theorem State.recordOutcome_rxbuf (r : Result) (c : BadCause) (hv pv : Bool) (n : Nat) (a b : Byte) : (s.recordOutcome r c hv pv n a b).rxbuf = s.rxbuf :=
  rfl
@[simp] theorem State.recordOutcome_pay (r : Result) (c : BadCause) (hv pv : Bool) (n : Nat) (a b : Byte) : (s.recordOutcome r c hv pv n a b).pay = s.pay :=
  rfl
@[simp] theorem State.recordOutcome_inReset (r : Result) (c : BadCause) (hv pv : Bool) (n : Nat) (a b : Byte) : (s.recordOutcome r c hv pv n a b).inReset = s.inReset :=
  rfl
@[simp] theorem State.recordOutcome_pending (r : Result) (c : BadCause) (hv pv : Bool) (n : Nat) (a b : Byte) : (s.recordOutcome r c hv pv n a b).pending = s.pending :=
  rfl
@[simp] theorem State.recordOutcome_resp (r : Result) (c : BadCause) (hv pv : Bool) (n : Nat) (a b : Byte) : (s.recordOutcome r c hv pv n a b).resp = s.resp :=
  rfl
@[simp] theorem State.recordOutcome_draws (r : Result) (c : BadCause) (hv pv : Bool) (n : Nat) (a b : Byte) : (s.recordOutcome r c hv pv n a b).draws = s.draws :=
  rfl

/-! ## completeHeader -/

@[simp] theorem State.completeHeader_arg (c : Half) : (s.completeHeader c).arg = s.arg := rfl
@[simp] theorem State.completeHeader_status (c : Half) : (s.completeHeader c).status = s.status.clearCrc := rfl
@[simp] theorem State.completeHeader_need (c : Half) : (s.completeHeader c).need = s.need := rfl
@[simp] theorem State.completeHeader_hdr (c : Half) : (s.completeHeader c).hdr = { s.hdr with lrc := lrc [s.hdr.id, s.hdr.len, crcLo c, crcHi c] } :=
  rfl
@[simp] theorem State.completeHeader_hcrc (c : Half) : (s.completeHeader c).hcrc = c := rfl
@[simp] theorem State.completeHeader_badinfo (c : Half) : (s.completeHeader c).badinfo = s.badinfo := rfl
@[simp] theorem State.completeHeader_expect (c : Half) : (s.completeHeader c).expect = s.expect := rfl
@[simp] theorem State.completeHeader_rxlen (c : Half) : (s.completeHeader c).rxlen = s.rxlen := rfl
@[simp] theorem State.completeHeader_calcCrc (c : Half) : (s.completeHeader c).calcCrc = s.calcCrc := rfl
@[simp] theorem State.completeHeader_lrcSum (c : Half) : (s.completeHeader c).lrcSum = s.lrcSum := rfl
@[simp] theorem State.completeHeader_crcAcc (c : Half) : (s.completeHeader c).crcAcc = s.crcAcc := rfl
@[simp] theorem State.completeHeader_tovIn (c : Half) : (s.completeHeader c).tovIn = s.tovIn := rfl
@[simp] theorem State.completeHeader_tovLatest (c : Half) : (s.completeHeader c).tovLatest = s.tovLatest := rfl
@[simp] theorem State.completeHeader_tovSnap (c : Half) : (s.completeHeader c).tovSnap = s.tovSnap := rfl
@[simp] theorem State.completeHeader_rxbuf (c : Half) : (s.completeHeader c).rxbuf = s.rxbuf := rfl
@[simp] theorem State.completeHeader_pay (c : Half) : (s.completeHeader c).pay = s.pay := rfl
@[simp] theorem State.completeHeader_inReset (c : Half) : (s.completeHeader c).inReset = s.inReset := rfl
@[simp] theorem State.completeHeader_pending (c : Half) : (s.completeHeader c).pending = s.pending := rfl
@[simp] theorem State.completeHeader_resp (c : Half) : (s.completeHeader c).resp = s.resp := rfl
@[simp] theorem State.completeHeader_draws (c : Half) : (s.completeHeader c).draws = s.draws := rfl

/-! ## The updates of STATUS -/

variable (t : Status)

@[simp] theorem Status.clearCrc_result : t.clearCrc.result = t.result := rfl
@[simp] theorem Status.clearCrc_badCause : t.clearCrc.badCause = t.badCause := rfl
@[simp] theorem Status.clearCrc_hdrValid : t.clearCrc.hdrValid = t.hdrValid := rfl
@[simp] theorem Status.clearCrc_pktValid : t.clearCrc.pktValid = t.pktValid := rfl
@[simp] theorem Status.clearCrc_crcDone : t.clearCrc.crcDone = false := rfl
@[simp] theorem Status.clearCrc_crcGood : t.clearCrc.crcGood = false := rfl
@[simp] theorem Status.clearCrc_ovf : t.clearCrc.ovf = t.ovf := rfl
@[simp] theorem Status.clearCrc_cmdErr : t.clearCrc.cmdErr = t.cmdErr := rfl

@[simp] theorem Status.setCrc_result (g : Bool) : (t.setCrc g).result = t.result := rfl
@[simp] theorem Status.setCrc_badCause (g : Bool) : (t.setCrc g).badCause = t.badCause := rfl
@[simp] theorem Status.setCrc_hdrValid (g : Bool) : (t.setCrc g).hdrValid = t.hdrValid := rfl
@[simp] theorem Status.setCrc_pktValid (g : Bool) : (t.setCrc g).pktValid = t.pktValid := rfl
@[simp] theorem Status.setCrc_crcDone (g : Bool) : (t.setCrc g).crcDone = true := rfl
@[simp] theorem Status.setCrc_crcGood (g : Bool) : (t.setCrc g).crcGood = g := rfl
@[simp] theorem Status.setCrc_ovf (g : Bool) : (t.setCrc g).ovf = t.ovf := rfl
@[simp] theorem Status.setCrc_cmdErr (g : Bool) : (t.setCrc g).cmdErr = t.cmdErr := rfl

@[simp] theorem Status.setOutcome_result (r : Result) (c : BadCause) (hv pv : Bool) : (t.setOutcome r c hv pv).result = r := rfl
@[simp] theorem Status.setOutcome_badCause (r : Result) (c : BadCause) (hv pv : Bool) : (t.setOutcome r c hv pv).badCause = c := rfl
@[simp] theorem Status.setOutcome_hdrValid (r : Result) (c : BadCause) (hv pv : Bool) : (t.setOutcome r c hv pv).hdrValid = hv := rfl
@[simp] theorem Status.setOutcome_pktValid (r : Result) (c : BadCause) (hv pv : Bool) : (t.setOutcome r c hv pv).pktValid = pv := rfl
@[simp] theorem Status.setOutcome_crcDone (r : Result) (c : BadCause) (hv pv : Bool) : (t.setOutcome r c hv pv).crcDone = t.crcDone := rfl
@[simp] theorem Status.setOutcome_crcGood (r : Result) (c : BadCause) (hv pv : Bool) : (t.setOutcome r c hv pv).crcGood = t.crcGood := rfl
@[simp] theorem Status.setOutcome_ovf (r : Result) (c : BadCause) (hv pv : Bool) : (t.setOutcome r c hv pv).ovf = t.ovf := rfl
@[simp] theorem Status.setOutcome_cmdErr (r : Result) (c : BadCause) (hv pv : Bool) : (t.setOutcome r c hv pv).cmdErr = t.cmdErr := rfl

@[simp] theorem Status.clearSticky_result : t.clearSticky.result = t.result := rfl
@[simp] theorem Status.clearSticky_badCause : t.clearSticky.badCause = t.badCause := rfl
@[simp] theorem Status.clearSticky_hdrValid : t.clearSticky.hdrValid = t.hdrValid := rfl
@[simp] theorem Status.clearSticky_pktValid : t.clearSticky.pktValid = t.pktValid := rfl
@[simp] theorem Status.clearSticky_crcDone : t.clearSticky.crcDone = t.crcDone := rfl
@[simp] theorem Status.clearSticky_crcGood : t.clearSticky.crcGood = t.crcGood := rfl
@[simp] theorem Status.clearSticky_ovf : t.clearSticky.ovf = false := rfl
@[simp] theorem Status.clearSticky_cmdErr : t.clearSticky.cmdErr = false := rfl

/-! ## PARSE leaves these fields alone, whatever its outcome (R140) -/

variable (w : Wire) (o : ParseOutcome)

@[simp] theorem State.parseEffect_arg : (s.parseEffect w o).arg = s.arg := by cases o <;> rfl
@[simp] theorem State.parseEffect_expect : (s.parseEffect w o).expect = s.expect := by cases o <;> rfl
@[simp] theorem State.parseEffect_rxlen : (s.parseEffect w o).rxlen = s.rxlen := by cases o <;> rfl
@[simp] theorem State.parseEffect_calcCrc : (s.parseEffect w o).calcCrc = s.calcCrc := by cases o <;> rfl
@[simp] theorem State.parseEffect_lrcSum : (s.parseEffect w o).lrcSum = s.lrcSum := by cases o <;> rfl
@[simp] theorem State.parseEffect_crcAcc : (s.parseEffect w o).crcAcc = s.crcAcc := by cases o <;> rfl
@[simp] theorem State.parseEffect_tovIn : (s.parseEffect w o).tovIn = s.tovIn := by cases o <;> rfl
@[simp] theorem State.parseEffect_tovLatest : (s.parseEffect w o).tovLatest = s.tovLatest := by cases o <;> rfl
@[simp] theorem State.parseEffect_rxbuf : (s.parseEffect w o).rxbuf = s.rxbuf := by cases o <;> rfl
@[simp] theorem State.parseEffect_inReset : (s.parseEffect w o).inReset = s.inReset := by cases o <;> rfl
@[simp] theorem State.parseEffect_pending : (s.parseEffect w o).pending = s.pending := by cases o <;> rfl
@[simp] theorem State.parseEffect_resp : (s.parseEffect w o).resp = s.resp := by cases o <;> rfl
@[simp] theorem State.parseEffect_draws : (s.parseEffect w o).draws = s.draws := by cases o <;> rfl
@[simp] theorem State.parseEffect_ovf : (s.parseEffect w o).status.ovf = s.status.ovf := by cases o <;> rfl
@[simp] theorem State.parseEffect_cmdErr : (s.parseEffect w o).status.cmdErr = s.status.cmdErr := by cases o <;> rfl

end Sys2Proof.Machine
end

