-- ==== Sys2Proof/Laws/Exec.lean ====
section
/-! SUPPORT. One lemma for each shared operation of the meanings and of the step: everything it can do, once. -/

namespace Sys2Proof.Machine

/-! ## The block's answers -/

theorem finishWrite_eq (s : State) : finishWrite s = .next s.writeDone := rfl

theorem finishWrite_next {s t : State} (h : finishWrite s = .next t) : t = s.writeDone := by
  cases h; rfl

theorem busRead_of_inRange {g : Target} (s : State) (h : g.inRange = true) :
    busRead s g = .next (s.readDone (targetWord s g) (if drawsByte s g then 1 else 0)) := by
  simp [busRead, h]

theorem busRead_of_outside {g : Target} (s : State) (h : g.inRange = false) :
    busRead s g = .fault (.busError g.off .reserved) := by
  simp [busRead, h, raiseBusError]

theorem busRead_next {g : Target} {s t : State} (h : busRead s g = .next t) :
    g.inRange = true ∧ t = s.readDone (targetWord s g) (if drawsByte s g then 1 else 0) := by
  cases hg : g.inRange with
  | false => rw [busRead_of_outside s hg] at h; cases h
  | true => rw [busRead_of_inRange s hg] at h; cases h; exact ⟨rfl, rfl⟩

theorem drawsByte_readDone (s : State) (w : Word) (n : Nat) (g : Target) :
    drawsByte (s.readDone w n) g = drawsByte s g := by cases g <;> rfl

/-- A read that draws no free byte leaves every word as it was. -/
theorem targetWord_readDone (s : State) (w : Word) (n : Nat) (g : Target) (h : drawsByte s g = false) :
    targetWord (s.readDone w n) g = targetWord s g := by
  cases g with
  | reg r => cases r <;> rfl
  | rxbuf i =>
    simp only [drawsByte, decide_eq_false_iff_not] at h
    have hb : rxByte (s.readDone w n) i = rxByte s i := rfl
    simp only [targetWord, State.readDone_rxlen, h, if_false, hb]
  | pay i => rfl
  | raw i => rfl

/-! ## The two other operations with a window index (R53) -/

theorem execWrPay_of_lt {k : Nat} (d : Word) (s : State) (h : k < Config.payCap) :
    execWrPay k d s = .next (s.storePay k (byteOf d 0)).writeDone := by
  rw [execWrPay, if_pos h, finishWrite_eq]

theorem execWrPay_next {k : Nat} {d : Word} {s t : State} (h : execWrPay k d s = .next t) :
    k < Config.payCap ∧ t = (s.storePay k (byteOf d 0)).writeDone := by
  by_cases hk : k < Config.payCap
  · rw [execWrPay_of_lt d s hk] at h; cases h; exact ⟨hk, rfl⟩
  · rw [execWrPay, if_neg hk] at h; cases h

theorem execWrIgnored_of_inRange {g : Target} (d : Word) (s : State) (h : g.inRange = true) :
    execWrIgnored g d s = .next s.writeDone := by
  rw [execWrIgnored, if_pos h, finishWrite_eq]

theorem execWrIgnored_next {g : Target} {d : Word} {s t : State} (h : execWrIgnored g d s = .next t) :
    g.inRange = true ∧ t = s.writeDone := by
  cases hg : g.inRange with
  | true => rw [execWrIgnored_of_inRange d s hg] at h; cases h; exact ⟨rfl, rfl⟩
  | false => rw [execWrIgnored, hg] at h; cases h

theorem execBusError_eq (t : Txn) (s : State) :
    execBusError t s = .fault (.busError t.off (t.busError.getD .reserved)) := rfl

/-! ## PARSE -/

/-- The six outcomes of a parse, each with the tests that lead to it, in the order of R138. -/
theorem parseOutcome_cases (n : Nat) (w : Wire) (e : Expect) :
    (n < 5 ∧ parseOutcome n w e = .shortHeader (5 - n)) ∨
    (5 ≤ n ∧ allZero w = true ∧ parseOutcome n w e = .allZero) ∨
    (5 ≤ n ∧ allZero w = false ∧ lrcOk w = false ∧ parseOutcome n w e = .lrcMismatch) ∨
    (5 ≤ n ∧ validHeader w = true ∧ n < 5 + w.b2.toNat ∧
      parseOutcome n w e = .shortPayload (5 + w.b2.toNat - n)) ∨
    (5 + w.b2.toNat ≤ n ∧ validHeader w = true ∧ e.en = true ∧ w.b2 ≠ e.len ∧ parseOutcome n w e = .lenMismatch) ∨
    (5 + w.b2.toNat ≤ n ∧ validHeader w = true ∧ ¬(e.en = true ∧ w.b2 ≠ e.len) ∧ parseOutcome n w e = .ok) := by
  unfold parseOutcome
  simp only [Config.hdrLen]
  by_cases h1 : n < 5
  · simp [h1]
  · cases h2 : allZero w with
    | true => simp [h1, show 5 ≤ n by omega]
    | false =>
      cases h3 : lrcOk w with
      | false => simp [h1, show 5 ≤ n by omega]
      | true =>
        by_cases h4 : n < 5 + w.b2.toNat
        · simp [h1, h2, h3, h4, validHeader, show 5 ≤ n by omega]
        · by_cases h5 : e.en = true ∧ w.b2 ≠ e.len
          · simp [h1, h2, h3, h4, h5, validHeader, show 5 ≤ n by omega, show 5 + w.b2.toNat ≤ n by omega]
          · have h5' : (e.en && w.b2 != e.len) = false := by
              rw [not_and_or] at h5
              rcases h5 with h | h <;> simp_all
            simp [h1, h2, h3, h4, h5, h5', validHeader, show 5 + w.b2.toNat ≤ n by omega]

theorem State.parseDecision_eq (s : State) : s.parseDecision = parseOutcome s.rxlen.toNat (rxWire s) s.expect := rfl

/-- The header record is its wire bytes, both ways (R130, R151). -/
theorem wireOf_hdrOfWire (w : Wire) : wireOf (hdrOfWire w) (hcrcOfWire w) = w := by
  simp only [wireOf, hdrOfWire, hcrcOfWire, crcLo, crcHi]
  congr 1
  · exact BitVec.extractLsb'_append_eq_right
  · exact BitVec.extractLsb'_append_eq_left

/-- PARSE always completes, with the effect of its decision (R140). -/
theorem execParse_eq (s : State) : execParse s = .next (s.parseEffect (rxWire s) s.parseDecision).writeDone := rfl

/-! ## Taking the next event -/

theorem fetch_idle {base : Nat} {s : State} (h : s.pending = []) : fetch base s = .next (none, s) := by
  simp [fetch, h]

theorem fetch_resetAssert {base : Nat} {s : State} {rest : List HostEvent} (h : s.pending = .resetAssert :: rest) :
    fetch base s = .next (none, ({ s with pending := rest } : State).assertReset) := by
  simp [fetch, h]

theorem fetch_resetRelease {base : Nat} {s : State} {rest : List HostEvent} (h : s.pending = .resetRelease :: rest) :
    fetch base s = .next (none, ({ s with pending := rest } : State).releaseReset) := by
  simp [fetch, h]

theorem fetch_txn {base : Nat} {s : State} {t : Txn} {rest : List HostEvent} (h : s.pending = .txn t :: rest) :
    fetch base s = fetchTxn t { s with pending := rest } := by
  simp [fetch, h]

theorem fetch_bus {base : Nat} {s : State} {h : HostTxn} {rest : List HostEvent} (hp : s.pending = .bus h :: rest) :
    fetch base s = fetchBus base h { s with pending := rest } := by
  simp [fetch, hp]

/-- R68: the address at offset `off` of a block at `base` is taken as that offset. -/
theorem HostTxn.toTxn_of_offset {base off : Nat} {h : HostTxn} (ha : h.addr = base + off) (ho : off < 0x4000) :
    h.toTxn base = some { kind := h.kind, access := h.access, off := off } := by
  simp [HostTxn.toTxn, offsetFrom, ha, Config.windowBytes_eq, ho]

/-- R60: an address outside the 16 KiB from `base` is not the block's. -/
theorem HostTxn.toTxn_of_outside {base : Nat} {h : HostTxn} (ha : h.addr < base ∨ base + 0x4000 ≤ h.addr) :
    h.toTxn base = none := by
  have : ¬ (base ≤ h.addr ∧ h.addr < base + 0x4000) := by omega
  simp [HostTxn.toTxn, offsetFrom, Config.windowBytes_eq, this]

/-- All a transaction can lead to before its operation runs. -/
theorem fetchTxn_cases (t : Txn) (s : State) :
    (s.inReset = true ∧ fetchTxn t s = .fault (.transactionDuringReset t.off)) ∨
    (s.inReset = false ∧ ∃ off, decode t = .error (.offsetOutside off) ∧
      fetchTxn t s = .refused (.offsetOutside off)) ∨
    (s.inReset = false ∧ ∃ i, decode t = .ok i ∧ fetchTxn t s = .next (some i, s)) := by
  cases hr : s.inReset with
  | true => simp [fetchTxn, hr]
  | false =>
    cases hd : decode t with
    | error e => cases e with | offsetOutside off => simp [fetchTxn, hr, hd]
    | ok i => simp [fetchTxn, hr, hd]

/-! ## No operation touches what belongs to the host and the platform -/

theorem State.appendByte_pending (s : State) (b : Byte) : (s.appendByte b).pending = s.pending := by
  unfold State.appendByte; split <;> rfl

theorem State.appendByte_inReset (s : State) (b : Byte) : (s.appendByte b).inReset = s.inReset := by
  unfold State.appendByte; split <;> rfl

/-- An operation changes neither the host's pending events nor the reset input. -/
theorem exec_pending {i : Instr} {s t : State} (h : exec i s = .next t) :
    t.pending = s.pending ∧ t.inReset = s.inReset := by
  cases i with
  | wrRxData d => cases h; exact ⟨State.appendByte_pending _ _, State.appendByte_inReset _ _⟩
  | parse =>
    cases h
    exact ⟨State.parseEffect_pending _ _ _, State.parseEffect_inReset _ _ _⟩
  | wrPay k d => obtain ⟨_, rfl⟩ := execWrPay_next h; exact ⟨rfl, rfl⟩
  | rdRaw k => obtain ⟨_, rfl⟩ := busRead_next h; exact ⟨rfl, rfl⟩
  | rdReg g => obtain ⟨_, rfl⟩ := busRead_next h; exact ⟨rfl, rfl⟩
  | wrIgnored g d => obtain ⟨_, rfl⟩ := execWrIgnored_next (d := d) h; exact ⟨rfl, rfl⟩
  | busError t => cases h
  | _ => cases h; exact ⟨rfl, rfl⟩

end Sys2Proof.Machine
end

