-- ==== Sys2Proof/Laws/PerInstr.lean ====
section
/-! SUPPORT. The family of statements made once for each instruction: a well-formed operation is one transaction within
the block's 16 KiB (spec/20_memory.md R60, spec/30_encoding.md R80), and it is a full aligned access unless it is the bus
error row. -/

namespace Sys2Proof.Laws

open Sys2Proof.Machine

/-- The instruction as syntax: its encoding lies in the block and is a full aligned access (R61, R62), but for
`(bus error)`. -/
def Transaction.Statement (i : Instr) : Prop :=
  i.wf = true →
    (encode i).off < 0x4000 ∧
      ((∀ t, i ≠ .busError t) → (encode i).access = .word 0xF#4 ∧ (encode i).off % 4 = 0)

theorem Transaction.of_write {i : Instr} {g : Target} {d : Word} (h : encode i = writeTxn g d) (hg : g.inRange = true) :
    Transaction.Statement i := by
  intro _
  rw [h]
  exact ⟨Target.off_lt hg, fun _ => ⟨rfl, Target.off_aligned g⟩⟩

theorem Transaction.of_read {i : Instr} {g : Target} (h : encode i = readTxn g) (hg : g.inRange = true) :
    Transaction.Statement i := by
  intro _
  rw [h]
  exact ⟨Target.off_lt hg, fun _ => ⟨rfl, Target.off_aligned g⟩⟩

theorem Transaction.nop : Transaction.Statement .nop := Transaction.of_write (g := .reg .cmd) rfl rfl
theorem Transaction.parse : Transaction.Statement .parse := Transaction.of_write (g := .reg .cmd) rfl rfl
theorem Transaction.crcCheck : Transaction.Statement .crcCheck := Transaction.of_write (g := .reg .cmd) rfl rfl
theorem Transaction.updateHeader : Transaction.Statement .updateHeader := Transaction.of_write (g := .reg .cmd) rfl rfl
theorem Transaction.build : Transaction.Statement .build := Transaction.of_write (g := .reg .cmd) rfl rfl
theorem Transaction.rxClear : Transaction.Statement .rxClear := Transaction.of_write (g := .reg .cmd) rfl rfl
theorem Transaction.lrcInit : Transaction.Statement .lrcInit := Transaction.of_write (g := .reg .cmd) rfl rfl
theorem Transaction.lrcUpdate : Transaction.Statement .lrcUpdate := Transaction.of_write (g := .reg .cmd) rfl rfl
theorem Transaction.lrcUpdate4 : Transaction.Statement .lrcUpdate4 := Transaction.of_write (g := .reg .cmd) rfl rfl
theorem Transaction.crcInit : Transaction.Statement .crcInit := Transaction.of_write (g := .reg .cmd) rfl rfl
theorem Transaction.crcUpdate : Transaction.Statement .crcUpdate := Transaction.of_write (g := .reg .cmd) rfl rfl
theorem Transaction.tovSet : Transaction.Statement .tovSet := Transaction.of_write (g := .reg .cmd) rfl rfl
theorem Transaction.statusClear : Transaction.Statement .statusClear := Transaction.of_write (g := .reg .cmd) rfl rfl
theorem Transaction.softReset : Transaction.Statement .softReset := Transaction.of_write (g := .reg .cmd) rfl rfl

theorem Transaction.wrArg (d : Word) : Transaction.Statement (.wrArg d) :=
  Transaction.of_write (g := .reg .arg) rfl rfl

theorem Transaction.wrExpect (d : Word) : Transaction.Statement (.wrExpect d) :=
  Transaction.of_write (g := .reg .expect) rfl rfl

theorem Transaction.wrRxData (d : Word) : Transaction.Statement (.wrRxData d) :=
  Transaction.of_write (g := .reg .rxData) rfl rfl

theorem Transaction.wrTovSecIn (d : Word) : Transaction.Statement (.wrTovSecIn d) :=
  Transaction.of_write (g := .reg .tovSecIn) rfl rfl

theorem Transaction.wrTovUsIn (d : Word) : Transaction.Statement (.wrTovUsIn d) :=
  Transaction.of_write (g := .reg .tovUsIn) rfl rfl

theorem Transaction.wrPay (k : Nat) (d : Word) : Transaction.Statement (.wrPay k d) :=
  fun h => Transaction.of_write (g := .pay k) rfl h h

theorem Transaction.wrCmd (w : Word) : Transaction.Statement (.wrCmd w) :=
  Transaction.of_write (g := .reg .cmd) rfl rfl

theorem Transaction.rdRaw (k : Nat) : Transaction.Statement (.rdRaw k) :=
  fun h => Transaction.of_read (g := .raw k) rfl h h

theorem Transaction.rdReg (g : Target) : Transaction.Statement (.rdReg g) := by
  intro h
  have hg : g.inRange = true := by
    cases g with
    | raw i => cases h
    | _ => exact h
  exact Transaction.of_read (g := g) rfl hg h

theorem Transaction.wrIgnored (g : Target) (d : Word) : Transaction.Statement (.wrIgnored g d) := by
  intro h
  have hg : g.inRange = true := by
    simp only [Instr.wf, Bool.and_eq_true] at h
    exact h.1
  exact Transaction.of_write (g := g) rfl hg h

theorem Transaction.busError (t : Txn) : Transaction.Statement (.busError t) := by
  intro h
  simp only [Instr.wf, Bool.and_eq_true, Txn.decoded, decide_eq_true_eq] at h
  exact ⟨h.1, fun hne => absurd rfl (hne t)⟩

end Sys2Proof.Laws
end

