-- ==== Sys2Proof/Tests/Slice0.lean ====
section
/-! SUPPORT. The model's own tests. Expected values come from spec/95_test_vectors.md and from the examples in the rules;
each comment names the source. The `witness_` theorems show states and operands that meet the hypotheses of a statement. -/

namespace Sys2Proof.Tests

open Sys2Proof.Machine

/-! ## Small states -/

/-- One field of the state after an operation. -/
def after {α : Type} (i : Instr) (s : State) (f : State → α) : Option α :=
  match exec i s with
  | .next t => some (f t)
  | _ => none

/-- A receive window that holds `bs`. -/
def window (bs : List Byte) : State :=
  { State.reset with rxbuf := Memory.writeAll [] 0 bs, rxlen := BitVec.ofNat 9 bs.length }

/-- A header record and a payload. -/
def packet (h : Hdr) (c : Half) (bs : List Byte) : State :=
  { State.reset with hdr := h, hcrc := c, pay := Memory.writeAll [] 0 bs }

def payload17 : List Byte := [0x00, 0x00, 0x80, 0x3F, 0x00, 0x00, 0x00, 0x40, 0x00, 0x00, 0x40, 0xC0]

/-- P17 (95, the example packets). -/
def p17 : List Byte := [0x95, 0x23, 0x0C, 0x73, 0xC9] ++ payload17

/-- P7. -/
def p7 : List Byte := [0x1B, 0x14, 0x02, 0xEA, 0xE5, 0xAA, 0x55]

/-- P7 as built, ready for its header (R148, example). -/
def built7 : State := packet { lrc := 0, id := 0x14, len := 2 } 0 [0xAA, 0x55]

/-- P7 parsed. -/
def parsed7 : State := packet { lrc := 0x1B, id := 0x14, len := 2 } 0xE5EA [0xAA, 0x55]

def statusOf (t : State) : Word := statusWord t.status

/-! ## Ill-formed terms are refused, one for each check -/

theorem test_wf_refuses_pay_255 : (Instr.wrPay 255 0).wf = false := by decide
theorem test_wf_refuses_legal_command : (Instr.wrCmd 0x3F).wf = false := by decide
theorem test_wf_refuses_raw_260 : (Instr.rdRaw 260).wf = false := by decide
theorem test_wf_refuses_read_of_raw : (Instr.rdReg (.raw 0)).wf = false := by decide
theorem test_wf_refuses_read_of_rxbuf_260 : (Instr.rdReg (.rxbuf 260)).wf = false := by decide
theorem test_wf_refuses_ignored_write_to_arg : (Instr.wrIgnored (.reg .arg) 0).wf = false := by decide
theorem test_wf_refuses_ignored_write_to_rxbuf_260 : (Instr.wrIgnored (.rxbuf 260) 0).wf = false := by decide
theorem test_wf_refuses_bus_error_at_arg : (Instr.busError (fullRead 0x004)).wf = false := by decide
theorem test_wf_refuses_bus_error_outside : (Instr.busError (fullRead 0x4000)).wf = false := by decide

/-! ## Decoding: words and offsets written out from R81, R82 and R87 -/

theorem test_decode_commands :
    [0b00000000000000000000000000000000#32, 0b00000000000000000000000000000001#32,
      0b00000000000000000000000000000010#32, 0b00000000000000000000000000000011#32,
      0b00000000000000000000000000000100#32, 0b00000000000000000000000000001000#32,
      0b00000000000000000000000000010000#32, 0b00000000000000000000000000010001#32,
      0b00000000000000000000000000010010#32, 0b00000000000000000000000000011000#32,
      0b00000000000000000000000000011001#32, 0b00000000000000000000000000100000#32,
      0b00000000000000000000000000110000#32, 0b00000000000000000000000000111111#32].map decodeCommand =
    [.nop, .parse, .crcCheck, .updateHeader, .build, .rxClear, .lrcInit, .lrcUpdate, .lrcUpdate4, .crcInit, .crcUpdate,
      .tovSet, .statusClear, .softReset] := by decide

/-- L2.12. -/
theorem test_decode_illegal_words :
    [0x05#32, 0x101#32, 0xFF#32].map decodeCommand = [.wrCmd 0x05, .wrCmd 0x101, .wrCmd 0xFF] := by decide

/-- The offsets of R87. -/
theorem test_decode_writes :
    [0x0004, 0x001C, 0x0024, 0x0040, 0x0044, 0x1000, 0x100C, 0x13F8].map (fun o => (decode (fullWrite o 7)).toOption) =
    [some (.wrArg 7), some (.wrExpect 7), some (.wrRxData 7), some (.wrTovSecIn 7), some (.wrTovUsIn 7),
      some (.wrPay 0 7), some (.wrPay 3 7), some (.wrPay 254 7)] := by decide

/-- Read-only targets (R52, R87): STATUS, RXBUF[259], RAW[0] (L2.12). -/
theorem test_decode_ignored_writes :
    [0x0008, 0x080C, 0x2000].map (fun o => (decode (fullWrite o 7)).toOption) =
    [some (.wrIgnored (.reg .status) 7), some (.wrIgnored (.rxbuf 259) 7), some (.wrIgnored (.raw 0) 7)] := by decide

/-- Reads of programs P1 and P2. -/
theorem test_decode_reads :
    [0x0008, 0x002C, 0x102C, 0x201C].map (fun o => (decode (fullRead o)).toOption) =
    [some (.rdReg (.reg .status)), some (.rdReg (.reg .calcCrc)), some (.rdReg (.pay 11)), some (.rdRaw 7)] := by decide

/-- L2.12, and the first word after each window of R22. -/
theorem test_decode_reserved :
    [0x03C, 0x058, 0x3FC, 0x810, 0xFFC, 0x13FC, 0x1FFC, 0x2410, 0x3FFC].map (fun o => (decode (fullRead o)).toOption) =
    [0x03C, 0x058, 0x3FC, 0x810, 0xFFC, 0x13FC, 0x1FFC, 0x2410, 0x3FFC].map (fun o => some (.busError (fullRead o))) := by
  decide

/-- L2.12: an 8-bit write to 0x024, and a read at 0x002. -/
theorem test_decode_narrow_and_misaligned :
    (decode { kind := .write 1, access := .byte, off := 0x024 }).toOption =
      some (.busError { kind := .write 1, access := .byte, off := 0x024 }) ∧
    (decode (fullRead 0x002)).toOption = some (.busError (fullRead 0x002)) := by decide

/-- R60: offset 0x4000 is not the block's. -/
theorem test_decode_outside : decode (fullRead 0x4000) = .error (.offsetOutside 0x4000) := by rfl

theorem test_table_word : decodeTableWord 32 0x12 = some .lrcUpdate4 := by decide

/-- A table word runs as the first instruction after reset: PARSE of an empty window needs 5 bytes (L1.5, n = 0). -/
theorem test_table_word_runs :
    (match step (State.reset.withFetchWord 32 1) with
      | .next t => some (statusOf t, t.need)
      | _ => none) = some (0x002, 5) := by decide

/-- Transactions 1 to 5 and 12 of program P1, 4, 5, 7 and 8 of P2, 2 and 3 of P3. -/
theorem test_script_expansions :
    program [.settov 1000 250000, .expectlen 12, .push [0x95], .cmd .parse] =
      [.txn (fullWrite 0x0040 0x000003E8), .txn (fullWrite 0x0044 0x0003D090), .txn (fullWrite 0x0000 0x00000020),
        .txn (fullWrite 0x001C 0x0000010C), .txn (fullWrite 0x0024 0x00000095), .txn (fullWrite 0x0000 0x00000001)] ∧
    program [.buildp 0x14 2, .wrpay 0 [0xAA, 0x55], .lrc4 0x23 0x0C 0x73 0xC9] =
      [.txn (fullWrite 0x0004 0x00000214), .txn (fullWrite 0x0000 0x00000004), .txn (fullWrite 0x1000 0x000000AA),
        .txn (fullWrite 0x1004 0x00000055), .txn (fullWrite 0x0004 0xC9730C23), .txn (fullWrite 0x0000 0x00000012)] := by
  decide

/-! ## Checksums -/

/-- L2.1. -/
theorem test_lrc :
    [lrc [], lrc [0x01], lrc [0x80, 0x80], lrc [0x01, 0x02, 0x03, 0x04], lrc [0x23, 0x0C, 0x73, 0xC9]] =
    [0x00, 0xFF, 0x00, 0xF6, 0x95] := by decide

/-- L2.2; the last value is the published check value (G2). -/
theorem test_crc16 :
    [crc16 [], crc16 [0x00], crc16 [0xFF], crc16 [0x12, 0x34],
      crc16 [0x31, 0x32, 0x33, 0x34, 0x35, 0x36, 0x37, 0x38, 0x39]] =
    [0xFFFF, 0xE1F0, 0xFF00, 0x0EC9, 0x29B1] := by decide

/-- Rows 0x00, 0x80 and 0xF8 of R105. -/
theorem test_crc_table :
    ((List.range 8).map (fun k => crcTable (BitVec.ofNat 8 k)) ++
      (List.range 8).map (fun k => crcTable (BitVec.ofNat 8 (0x80 + k))) ++
      (List.range 8).map (fun k => crcTable (BitVec.ofNat 8 (0xF8 + k)))) =
    [0x0000, 0x1021, 0x2042, 0x3063, 0x4084, 0x50A5, 0x60C6, 0x70E7, 0x9188, 0x81A9, 0xB1CA, 0xA1EB, 0xD10C, 0xC12D,
      0xF14E, 0xE16F, 0x6E17, 0x7E36, 0x4E55, 0x5E74, 0x2E93, 0x3EB2, 0x0ED1, 0x1EF0] := by decide

/-! ## The engines (L2.3, L2.4) -/

theorem test_lrc_init : after .lrcInit { State.reset with lrcSum := 0x4A } (·.lrcSum) = some 0 := by decide

theorem test_lrc_update_wraps :
    after .lrcUpdate { State.reset with lrcSum := 0xFF, arg := 0x00000002 } (·.lrcSum) = some 0x01 := by decide

theorem test_lrc_update_ignores_high_bits :
    after .lrcUpdate { State.reset with arg := 0x000001FF } (·.lrcSum) = some 0xFF := by decide

theorem test_lrc_update4 :
    after .lrcUpdate4 { State.reset with arg := 0xC9730C23 } (fun t => (t.lrcSum, regWord t .lrcOut)) =
      some (0x6B, 0x95) := by decide

theorem test_lrc_update4_all_ones :
    after .lrcUpdate4 { State.reset with arg := 0xFFFFFFFF } (·.lrcSum) = some 0xFC := by decide

theorem test_crc_init : after .crcInit { State.reset with crcAcc := 0xC973 } (·.crcAcc) = some 0xFFFF := by decide

theorem test_crc_update : after .crcUpdate { State.reset with arg := 0x31 } (·.crcAcc) = some 0xC782 := by decide

theorem test_crc_update_ignores_high_bits :
    after .crcUpdate { State.reset with arg := 0x000001FF } (·.crcAcc) = some 0xFF00 := by decide

/-! ## The windows -/

/-- L2.5, R133 example. -/
theorem test_rx_data_keeps_the_low_byte :
    after (.wrRxData 0x1FF) (window [1, 2, 3]) (fun t => (t.rxlen, t.rxbuf.lookup 3, statusOf t)) =
      some (4, some 0xFF, 0) := by decide

/-- L2.5: the 261st append. -/
theorem test_rx_data_full :
    after (.wrRxData 0x12) { State.reset with rxlen := 260 } (fun t => (t.rxlen, t.rxbuf, statusOf t)) =
      some (260, [], 0x100) := by decide

/-- R134 example: PAY[3] of P17, with CRC_DONE and CRC_GOOD set before. -/
theorem test_pay_write :
    after (.wrPay 3 0x3E) { packet { lrc := 0x95, id := 0x23, len := 12 } 0xC973 payload17 with
        status := ⟨.ok, .none, true, true, true, true, false, false⟩ }
      (fun t => (t.pay.lookup 3, statusOf t)) = some (some 0x3E, 0x031) := by decide

/-- L2.5. -/
theorem test_rx_clear : after .rxClear (window p17) (fun t => (t.rxlen, t.rxbuf == (window p17).rxbuf)) = some (0, true) := by
  decide

/-! ## PARSE (L1.5, L1.6, L1.9, L2.6) -/

theorem test_parse_p17 :
    after .parse (window p17) (fun t => (statusOf t, regWord t .hdr, t.hcrc, pktLen t, t.pay.map Prod.snd)) =
      some (0x031, 0x000C2395, 0xC973, 17, payload17) := by decide

theorem test_parse_two_packets :
    after .parse (window (p7 ++ p17)) (fun t => (statusOf t, regWord t .hdr, t.hcrc, t.pay.map Prod.snd)) =
      some (0x031, 0x0002141B, 0xE5EA, [0xAA, 0x55]) := by decide

/-- The clauses of ParseDecidesByTheFirstTestThatApplies, each at the edge of its test: n = 4 and n = 5 zero bytes. -/
theorem witness_parse_short_and_zero :
    after .parse (window [0, 0, 0, 0]) (fun t => (statusOf t, t.need)) = some (0x002, 1) ∧
    after .parse (window [0, 0, 0, 0, 0]) (fun t => (statusOf t, t.need)) = some (0x007, 0) := by decide

/-- L2.6: `00 00 00 00 01`, five bytes that are not all zero and fail the LRC. -/
theorem witness_parse_lrc_mismatch :
    after .parse (window [0, 0, 0, 0, 1]) (fun t => (statusOf t, t.hcrc, regWord t .badinfo)) =
      some (0x00B, 0x0100, 0xFF00) := by decide

/-- L1.5, n = 16, one byte short; and n = 5. -/
theorem witness_parse_short_payload :
    after .parse (window (p17.take 16)) (fun t => (statusOf t, t.need, pktLen t)) = some (0x012, 1, 17) ∧
    after .parse (window (p17.take 5)) (fun t => (statusOf t, t.need, pktLen t)) = some (0x012, 12, 17) := by decide

/-- L1.9: EXPECT = 0x110 and 0x10C on P17. -/
theorem witness_parse_expect :
    after .parse { window p17 with expect := ⟨0x10, true⟩ } (fun t => (statusOf t, regWord t .badinfo)) =
      some (0x01F, 0x100C) ∧
    after .parse { window p17 with expect := ⟨0x0C, true⟩ } (fun t => (statusOf t, regWord t .badinfo)) =
      some (0x031, 0) := by decide

/-- L1.8: the snapshot is the registry at the parse. -/
theorem test_parse_snapshot :
    after .parse { window (p17.take 7) with tovLatest := ⟨1000, 250000⟩ } (·.tovSnap) = some ⟨1000, 250000⟩ := by decide

/-! ## CRC_CHECK, UPDATE_HEADER, BUILD, RAW -/

/-- L2.7: a good and a corrupted payload. -/
theorem test_crc_check :
    after .crcCheck (packet ⟨0x95, 0x23, 12⟩ 0xC973 payload17) (fun t => (t.calcCrc, statusOf t)) =
      some (0xC973, 0x0C0) := by decide +kernel

theorem test_crc_check_corrupted :
    after .crcCheck (packet ⟨0x95, 0x23, 12⟩ 0xC973 (payload17.set 3 0x3E)) (fun t => (t.calcCrc, statusOf t)) =
      some (0x2250, 0x040) := by decide +kernel

/-- L2.8. -/
theorem test_update_header :
    after .updateHeader built7 (fun t => (regWord t .hdr, t.hcrc)) = some (0x0002141B, 0xE5EA) := by decide

theorem test_update_header_empty :
    after .updateHeader State.reset (fun t => (regWord t .hdr, t.hcrc)) = some (0x00000002, 0xFFFF) := by decide

/-- L2.9. -/
theorem test_build :
    after .build { State.reset with arg := 0xABCD0214, tovLatest := ⟨5, 6⟩ }
      (fun t => (regWord t .hdr, t.hcrc, statusOf t, pktLen t, t.tovSnap)) =
      some (0x00021400, 0, 0x030, 7, ⟨5, 6⟩) := by decide

/-- L2.10: RAW(0..8). -/
theorem test_raw :
    (List.range 8).map (fun k => after (.rdRaw k) parsed7 (·.resp)) =
      [0x1B, 0x14, 0x02, 0xEA, 0xE5, 0xAA, 0x55, 0x00].map (fun w => some (some (.readData w))) := by decide

/-! ## Control (L2.11, L2.12) -/

theorem test_nop : after .nop parsed7 (fun t => (statusOf t, t.hdr)) = some (0, parsed7.hdr) := by decide

theorem test_wr_arg : after (.wrArg 0xC9730C23) State.reset (fun t => regWord t .arg) = some 0xC9730C23 := by decide

theorem test_wr_expect : after (.wrExpect 0xFFFFFF0C) State.reset (fun t => regWord t .expect) = some 0x10C := by decide

theorem test_wr_tov :
    after (.wrTovSecIn 1000) State.reset (fun t => (t.tovIn, t.tovLatest)) = some (⟨1000, 0⟩, ⟨0, 0⟩) ∧
    after (.wrTovUsIn 2000000) State.reset (fun t => (t.tovIn, t.tovLatest)) = some (⟨0, 2000000⟩, ⟨0, 0⟩) := by decide

theorem test_tov_set :
    after .tovSet { State.reset with tovIn := ⟨1000, 250000⟩, tovSnap := ⟨1, 2⟩ } (fun t => (t.tovLatest, t.tovSnap)) =
      some (⟨1000, 250000⟩, ⟨1, 2⟩) := by decide

/-- STATUS 0x207 becomes 0x007, and 0x300 becomes 0. -/
theorem test_status_clear :
    after .statusClear { State.reset with status := ⟨.badHeader, .allZero, false, false, false, false, false, true⟩ }
      statusOf = some 0x007 ∧
    after .statusClear { State.reset with status := ⟨.none, .none, false, false, false, false, true, true⟩ } statusOf =
      some 0 := by decide

theorem test_soft_reset :
    after .softReset { parsed7 with arg := 9, rxlen := 7, crcAcc := 0, tovLatest := ⟨5, 6⟩ }
      (fun t => (t.arg, t.rxlen, t.crcAcc, pktLen t, t.tovLatest, t.pay == parsed7.pay)) =
      some (0, 0, 0xFFFF, 5, ⟨0, 0⟩, true) := by decide

theorem test_illegal_command : after (.wrCmd 0x05) State.reset statusOf = some 0x200 := by decide

theorem test_read_register :
    after (.rdReg (.reg .crcAcc)) State.reset (·.resp) = some (some (.readData 0xFFFF)) ∧
    after (.rdReg (.reg .rxData)) State.reset (·.resp) = some (some (.readData 0)) := by decide

theorem test_read_windows :
    after (.rdReg (.pay 1)) parsed7 (·.resp) = some (some (.readData 0x55)) ∧
    after (.rdReg (.rxbuf 6)) (window p7) (fun t => (t.resp, t.draws)) = some (some (.readData 0x55), 0) := by decide

/-- A read at index `>= RXLEN` draws one free byte (U2). -/
theorem test_read_above_rxlen_draws : after (.rdReg (.rxbuf 7)) (window p7) (·.draws) = some 1 := by decide

theorem test_write_status_ignored :
    after (.wrIgnored (.reg .status) 0xFFFFFFFF) State.reset (fun t => (statusOf t, t.arg)) = some (0, 0) := by decide

theorem test_bus_error_stops (s : State) :
    exec (.busError (fullRead 0x03C)) s = .fault (.busError 0x03C .reserved) ∧
    exec (.busError (fullRead 0x03D)) s = .fault (.busError 0x03D .access) := ⟨rfl, rfl⟩

/-- Reset, with a read at a host address pending. -/
def atAddress (addr : Nat) : State := { State.reset with pending := [.bus ⟨.read, .word 0xF#4, addr⟩] }

/-- R68, R22: CRC_ACC stands at offset 0x038, here of a block at 0x40004000. -/
theorem test_step_reads_at_a_host_address :
    stepAt 0x40004000 (atAddress 0x40004038) =
      .next { State.reset with resp := some (.readData 0xFFFF#32) } := by rfl

/-- U13: the addresses next to the block on both sides are refused. -/
theorem test_step_refuses_addresses_outside :
    stepAt 0x40004000 (atAddress 0x40003FFC) = .refused (.addressOutside 0x40003FFC) ∧
    stepAt 0x40004000 (atAddress 0x40008000) = .refused (.addressOutside 0x40008000) := ⟨rfl, rfl⟩

/-! ## Witnesses: states and operands that meet the hypotheses of the statements -/

theorem witness_DecodeOfEncode :
    ([.wrPay 254 0, .wrCmd 0x05, .rdRaw 259, .rdReg (.rxbuf 259), .wrIgnored (.raw 259) 0, .busError (fullRead 0x3FFC)] :
      List Instr).all Instr.wf = true := by decide

theorem witness_EncodeOfDecode : decode (fullWrite 0x13F8 7) = .ok (.wrPay 254 7) := by rfl

theorem witness_DecoderRejects : (fullRead 0x3FFF).off < 0x4000 ∧ ¬ (fullRead 0x4000).off < 0x4000 := by decide

/-- Each clause, at the ends of its range. -/
theorem witness_BusOperationsAreSelectedByOffset :
    (mappedOffset 0x000 ∧ mappedOffset 0x004 ∧ mappedOffset 0x01C ∧ mappedOffset 0x024 ∧ mappedOffset 0x040 ∧
      mappedOffset 0x044 ∧ mappedOffset 0x1000 ∧ mappedOffset 0x13F8 ∧ mappedOffset 0x054 ∧ mappedOffset 0x400 ∧
      mappedOffset 0x80C ∧ mappedOffset 0x2000 ∧ mappedOffset 0x240C) ∧
    (¬ mappedOffset 0x03C ∧ ¬ mappedOffset 0x058 ∧ ¬ mappedOffset 0x810 ∧ ¬ mappedOffset 0x13FC ∧
      ¬ mappedOffset 0x2410) ∧ legalCommand 0x101 = false := by
  simp [mappedOffset]; decide

/-- The first and last word of each gap of R84. -/
theorem witness_IllegalCommandWords :
    ([0x05, 0x07, 0x09, 0x0F, 0x13, 0x17, 0x1A, 0x1F, 0x21, 0x2F, 0x31, 0x3E, 0x40, 0xFF, 0x100, 0xFFFFFFFF] :
      List Word).all (fun w => !legalCommand w) = true := by decide

theorem witness_StepRunsTheDecodedOperation :
    (State.reset.issueNext (cmdTxn 1)).pending = .txn (cmdTxn 1) :: [] ∧
    (State.reset.issueNext (cmdTxn 1)).inReset = false ∧ decode (cmdTxn 1) = .ok .parse := ⟨rfl, rfl, rfl⟩

theorem witness_StepWithoutADecodedOperation :
    State.reset.pending = [] ∧
    ({ State.reset with pending := [.resetRelease], inReset := true } : State).pending = .resetRelease :: [] ∧
    ({ State.reset with pending := [.txn (cmdTxn 0)], inReset := true } : State).inReset = true ∧
    (State.reset.issueNext (fullRead 0x4000)).inReset = false ∧ 0x4000 ≤ (fullRead 0x4000).off := by decide

/-- The last offset of a block at 0x40004000, and the addresses on both sides of it. -/
theorem witness_HostAddressesAreTakenFromTheBase :
    0x3FFF < 0x4000 ∧ (atAddress 0x40007FFF).pending = [.bus ⟨.read, .word 0xF#4, 0x40004000 + 0x3FFF⟩] ∧
    0x40003FFF < 0x40004000 ∧ 0x40004000 + 0x4000 ≤ 0x40008000 ∧ (atAddress 0x4000402C).inReset = false ∧
    decode { kind := .read, access := .word 0xF#4, off := 0x2C } = .ok (.rdReg (.reg .calcCrc)) := by
  refine ⟨by decide, rfl, by decide, by decide, rfl, rfl⟩

theorem witness_EveryOperationButBusErrorCompletes :
    (Instr.rdRaw 259).wf = true ∧ ∀ t, Instr.rdRaw 259 ≠ .busError t := ⟨by decide, fun _ h => by cases h⟩

/-- A narrow, a misaligned and a reserved one. -/
theorem witness_UndecodableTransactions :
    ({ kind := .read, access := .word 0x7#4, off := 0x3FFC } : Txn).access ≠ .word 0xF#4 ∧
    (fullRead 0x3FFF).off % 4 ≠ 0 ∧ (fullRead 0x3FFC).access = .word 0xF#4 ∧ (fullRead 0x3FFC).off % 4 = 0 ∧
    ¬ mappedOffset (fullRead 0x3FFC).off := by
  refine ⟨by decide, by decide, by decide, by decide, ?_⟩
  simp [mappedOffset, fullRead]

theorem witness_PayWriteAndRawView : (Instr.wrPay 254 0).wf = true ∧ (254 : Nat) ≤ 254 ∧ (259 : Nat) ≤ 259 := by decide

theorem witness_IssuedOperationsStepSafely :
    (Instr.wrPay 254 0).wf = true ∧ ∀ t, Instr.wrPay 254 0 ≠ .busError t := ⟨by decide, fun _ h => by cases h⟩

/-- Room for exactly the bytes pushed, and the last PAY byte. -/
theorem witness_PushAndWrpay :
    State.reset.inReset = false ∧ ({ State.reset with rxlen := 259 } : State).rxlen.toNat + [(1 : Byte)].length ≤ 260 ∧
    254 + [(1 : Byte)].length ≤ 255 := by decide

theorem witness_LrcOfAPermutation : ([1, 2, 3] : List Byte).Perm [3, 2, 1] := by decide

theorem witness_RxDataAppendsOrSetsOvf :
    ({ State.reset with rxlen := 259 } : State).rxlen.toNat < 260 ∧
    260 ≤ ({ State.reset with rxlen := 260 } : State).rxlen.toNat := by decide

theorem witness_ParseAgain : exec .parse State.reset = .next ((State.reset.parseEffect (rxWire State.reset)
    State.reset.parseDecision).writeDone) := rfl

theorem witness_ParseNeverReadsAboveRxlen :
    ∀ i, i < (window [1]).rxlen.toNat → Memory.lookup [(0, 1), (1, 2)] i = (window [1]).rxbuf.lookup i := by decide

/-- P7's first 4, 5 and 7 bytes: the ends of the three ranges. -/
theorem witness_PartialInput :
    ([4, 5, 7] : List Nat).all (fun n =>
      (List.range n).all (fun k => rxByte (window (p7.take n)) k == p7.getD k 0) &&
        (window (p7.take n)).rxlen.toNat == n) = true ∧
    p7.length = 5 + (p7.getD 2 0).toNat ∧
    p7.getD 0 0 = lrc [p7.getD 1 0, p7.getD 2 0, p7.getD 3 0, p7.getD 4 0] ∧ (∃ k, k < 5 ∧ p7.getD k 0 ≠ 0) ∧
    (window p7).expect.en = false := by
  refine ⟨by decide, by decide, by decide, ⟨0, by decide⟩, rfl⟩

/-- The payload one byte short, and complete. -/
theorem witness_VariantLengthMismatch :
    ([6, 7] : List Nat).all (fun n =>
      let s : State := { window (p7.take n) with expect := ⟨3, true⟩ }
      decide (5 ≤ s.rxlen.toNat) && validHeader (rxWire s) && s.expect.en && rxByte s 2 != s.expect.len) = true := by
  decide

theorem witness_AnySingleByteCorruption :
    crc16 ((List.range parsed7.hdr.len.toNat).map (payByte parsed7)) = parsed7.hcrc ∧ 1 < parsed7.hdr.len.toNat ∧
    BitVec.ofNat 8 (0x54#32).toNat ≠ payByte parsed7 1 := by decide

theorem witness_RawReadout :
    exec .updateHeader built7 = .next (built7.completeHeader (crc16 (Machine.payload built7))).writeDone ∧
    built7.expect.en = false := ⟨rfl, rfl⟩

/-- The check on, with the right length. -/
theorem witness_RawReadout_expected :
    ({ built7 with expect := ⟨2, true⟩ } : State).expect.len = built7.hdr.len := by decide

theorem witness_HardwareReset :
    ({ parsed7 with pending := [.resetAssert] } : State).pending = .resetAssert :: [] := rfl

theorem witness_WindowReads :
    6 < (window p7).rxlen.toNat ∧ (window p7).rxlen.toNat ≤ 7 ∧ (window p7).rxlen.toNat ≤ 259 ∧ 254 < 255 := by decide

theorem witness_ReadingTwice :
    (Instr.rdReg (.rxbuf 6)).wf = true ∧ (Instr.rdReg (.pay 254)).wf = true ∧ (Instr.rdRaw 259).wf = true ∧
    6 < (window p7).rxlen.toNat := by decide

theorem witness_WritesToReadOnlyTargets :
    (Target.reg .status).inRange = true ∧ Reg.status ∉ [Reg.cmd, .arg, .expect, .rxData, .tovSecIn, .tovUsIn] ∧
    (Target.rxbuf 259).inRange = true ∧ (Target.raw 259).inRange = true := by decide

/-- For the whole-machine rules: an operation that completes, and is none of those left out. -/
theorem witness_OnlyTheseOperations :
    exec (.wrArg 7) State.reset = .next ({ State.reset with arg := 7 } : State).writeDone ∧
    Instr.wrArg 7 ∉ [Instr.lrcInit, .lrcUpdate, .lrcUpdate4, .crcInit, .crcUpdate, .softReset] ∧
    ∀ g, Instr.wrArg 7 ≠ .rdReg g := ⟨rfl, by decide, fun _ h => by cases h⟩

/-- A state with every field the two statements name away from its reset value. -/
def busy : State :=
  { parsed7 with
    arg := 0x0302, status := ⟨.badHeader, .lenMismatch, true, false, true, true, true, true⟩, need := 1,
    badinfo := ⟨1, 2⟩, expect := ⟨3, true⟩, rxlen := 4, calcCrc := 5, lrcSum := 6, crcAcc := 7, tovIn := ⟨8, 9⟩,
    tovLatest := ⟨10, 11⟩, tovSnap := ⟨12, 13⟩ }

/-- Each clause of OnlyTheseOperationsWriteTheEnvelope has an operation that changes what it names. -/
theorem witness_OnlyTheseOperationsWriteTheEnvelope :
    after .parse (window p7) (fun t => t.status.result == .ok) = some true ∧
    after .build busy (fun t => t.need != busy.need && t.badinfo != busy.badinfo && t.hdr.id != busy.hdr.id &&
      t.hdr.len != busy.hdr.len && t.status.badCause != busy.status.badCause) = some true ∧
    after .softReset busy (fun t => t.arg != busy.arg && t.expect != busy.expect && t.rxlen != busy.rxlen) = some true ∧
    after (.wrRxData 1) busy (fun t => t.rxbuf != busy.rxbuf && t.rxlen != busy.rxlen) = some true ∧
    after (.wrPay 0 1) busy (fun t => t.pay != busy.pay) = some true := by decide

/-- Each clause of OnlyTheseOperationsWriteTheRest too. -/
theorem witness_OnlyTheseOperationsWriteTheRest :
    after .softReset busy (fun t => t.calcCrc != busy.calcCrc && t.status.crcDone != busy.status.crcDone &&
      t.lrcSum != busy.lrcSum && t.crcAcc != busy.crcAcc && t.tovIn != busy.tovIn && t.tovLatest != busy.tovLatest &&
      t.tovSnap != busy.tovSnap && !t.status.ovf && !t.status.cmdErr) = some true ∧
    after (.wrRxData 1) { State.reset with rxlen := 260 } (fun t => t.status.ovf) = some true ∧
    after (.wrCmd 0x05) State.reset (fun t => t.status.cmdErr) = some true ∧
    after .build busy (fun t => t.tovSnap != busy.tovSnap && t.tovSnap == busy.tovLatest) = some true := by decide

/-- A state of the invariant that takes a step: one byte received, and a PARSE issued. -/
theorem witness_EveryStepKeepsTheInvariant :
    BlockInv ((window [7]).issueNext (cmdTxn 1)) ∧ ∃ t, step ((window [7]).issueNext (cmdTxn 1)) = .next t := by
  refine ⟨⟨⟨by decide, by decide⟩, ⟨by decide, ?_⟩, ?_, ?_, ?_⟩, _, rfl⟩
  · intro i hi
    have : i = 0 := by
      have h1 : ((window [7]).issueNext (cmdTxn 1)).rxlen.toNat = 1 := by decide
      omega
    subst this
    decide
  · refine ⟨by decide, ?_, ?_, ?_⟩ <;> decide
  · refine ⟨?_, ?_, ?_⟩ <;> decide
  · refine ⟨fun _ => rfl, fun h => ?_⟩
    cases h

end Sys2Proof.Tests
end

section
/-! Proofs: the state each operation leaves, once (spec/30_encoding.md R80, spec/10_state.md R53). -/

namespace Sys2Proof

open Machine

/-- The operation completes: its window index is in the map, and it is not the bus error row (R53, R194). -/
def Instr.inMap : Instr → Bool
  | .wrPay k _ => k < Config.payCap
  | .rdRaw k => (Target.raw k).inRange
  | .rdReg g => g.inRange
  | .wrIgnored g _ => g.inRange
  | .busError _ => false
  | _ => true

/-- The state operation `i` leaves where it completes; `exec_next_iff` ties it to `exec`. -/
def Instr.effect (s : State) : Instr → State
  | .nop => s.writeDone
  | .parse => (s.parseEffect (rxWire s) s.parseDecision).writeDone
  | .crcCheck =>
    ({ s with calcCrc := crc16 (payload s), status := s.status.setCrc (crc16 (payload s) == s.hcrc) } : State).writeDone
  | .updateHeader => (s.completeHeader (crc16 (payload s))).writeDone
  | .build =>
    (({ s with hdr := { lrc := 0, id := argByte s, len := argLen s }, hcrc := 0 } : State).takeSnapshot.recordOutcome
      .none .none true true 0 0 0).writeDone
  | .rxClear => ({ s with rxlen := 0 } : State).writeDone
  | .lrcInit => ({ s with lrcSum := 0 } : State).writeDone
  | .lrcUpdate => ({ s with lrcSum := s.lrcSum + argByte s } : State).writeDone
  | .lrcUpdate4 => ({ s with lrcSum := s.lrcSum + byteSum (argBytes s) } : State).writeDone
  | .crcInit => ({ s with crcAcc := Config.crcSeed } : State).writeDone
  | .crcUpdate => ({ s with crcAcc := crcStep s.crcAcc (argByte s) } : State).writeDone
  | .tovSet => ({ s with tovLatest := s.tovIn } : State).writeDone
  | .statusClear => ({ s with status := s.status.clearSticky } : State).writeDone
  | .softReset => s.resetRegisters.writeDone
  | .wrArg d => ({ s with arg := d } : State).writeDone
  | .wrExpect d => ({ s with expect := expectOf d } : State).writeDone
  | .wrRxData d => (s.appendByte (byteOf d 0)).writeDone
  | .wrTovSecIn d => ({ s with tovIn := { s.tovIn with sec := d } } : State).writeDone
  | .wrTovUsIn d => ({ s with tovIn := { s.tovIn with us := d } } : State).writeDone
  | .wrPay k d => (s.storePay k (byteOf d 0)).writeDone
  | .wrCmd _ => ({ s with status := { s.status with cmdErr := true } } : State).writeDone
  | .rdRaw k => s.readDone (targetWord s (.raw k)) 0
  | .rdReg g => s.readDone (targetWord s g) (if drawsByte s g then 1 else 0)
  | .wrIgnored _ _ => s.writeDone
  | .busError _ => s

namespace Machine

/-- Where the operation is in the map, `exec` completes with its effect. -/
theorem exec_of_inMap {i : Instr} (s : State) (h : i.inMap = true) : exec i s = .next (i.effect s) := by
  cases i with
  | wrPay k d => exact execWrPay_of_lt d s (of_decide_eq_true h)
  | rdRaw k => exact busRead_of_inRange s h
  | rdReg g => exact busRead_of_inRange s h
  | wrIgnored g d => exact execWrIgnored_of_inRange d s h
  | busError t => cases h
  | _ => rfl

/-- All an operation that completes can have done. -/
theorem exec_next_iff {i : Instr} {s t : State} : exec i s = .next t ↔ i.inMap = true ∧ t = i.effect s := by
  constructor
  · intro h
    have hm : i.inMap = true := by
      cases i with
      | wrPay k d => exact decide_eq_true (execWrPay_next h).1
      | rdRaw k => exact (busRead_next h).1
      | rdReg g => exact (busRead_next h).1
      | wrIgnored g d => exact (execWrIgnored_next (d := d) h).1
      | busError t => cases h
      | _ => rfl
    rw [exec_of_inMap s hm] at h
    cases h
    exact ⟨hm, rfl⟩
  · rintro ⟨hm, rfl⟩
    exact exec_of_inMap s hm

/-! ## Appending to the receive window (R133) -/

/-- The two outcomes of an append: the byte is stored and RXLEN advances, or OVF is set. -/
theorem State.appendByte_cases (s : State) (b : Byte) :
    (s.rxlen.toNat < Config.rxCap ∧
      s.appendByte b = { s with rxbuf := s.rxbuf.write s.rxlen.toNat b, rxlen := s.rxlen + 1 }) ∨
    (Config.rxCap ≤ s.rxlen.toNat ∧ s.appendByte b = { s with status := { s.status with ovf := true } }) := by
  by_cases h : s.rxlen.toNat < Config.rxCap
  · exact .inl ⟨h, if_pos h⟩
  · exact .inr ⟨Nat.le_of_not_lt h, if_neg h⟩

/-- An append touches RXBUF, RXLEN and OVF alone. -/
theorem State.appendByte_frame (s : State) (b : Byte) :
    ∃ m n v, s.appendByte b = { s with rxbuf := m, rxlen := n, status := { s.status with ovf := v } } := by
  rcases State.appendByte_cases s b with ⟨-, he⟩ | ⟨-, he⟩ <;> exact ⟨_, _, _, he⟩

theorem rxlen_succ_toNat {n : BitVec 9} (h : n.toNat < Config.rxCap) : (n + 1).toNat = n.toNat + 1 := by
  simp only [Config.rxCap] at h
  simp
  omega

end Machine
end Sys2Proof
end

section
/-! Proofs: the invariant of the block (R27 to R30, R32, R35, R37, R47). One lemma for each operation that writes what a
part of it speaks of; the others leave that part as it was. -/

namespace Sys2Proof.Machine

/-! ## The RAMs -/

theorem State.parseEffect_pay_wf {s : State} (w : Wire) (o : ParseOutcome)
    (h : Memory.wf Config.payCap s.pay = true) : Memory.wf Config.payCap (s.parseEffect w o).pay = true := by
  have hn : w.b2.toNat ≤ Config.payCap := by have := w.b2.isLt; simp only [Config.payCap]; omega
  cases o with
  | lenMismatch => exact State.copyPayload_pay_wf (s := (s.loadHeader w).takeSnapshot) hn h
  | ok => exact State.copyPayload_pay_wf (s := (s.loadHeader w).takeSnapshot) hn h
  | _ => exact h

theorem exec_keeps_ramsCanonical {i : Instr} {s t : State} (h : exec i s = .next t) (hs : ramsCanonical s) :
    ramsCanonical t := by
  obtain ⟨hm, rfl⟩ := exec_next_iff.1 h
  obtain ⟨hrx, hpay⟩ := hs
  cases i with
  | parse =>
    refine ⟨?_, State.parseEffect_pay_wf _ _ hpay⟩
    simpa [Instr.effect] using hrx
  | wrRxData d =>
    refine ⟨State.appendByte_rxbuf_wf (byteOf d 0) hrx, ?_⟩
    obtain ⟨_, _, _, he⟩ := State.appendByte_frame s (byteOf d 0)
    simpa [Instr.effect, he] using hpay
  | wrPay k d => exact ⟨hrx, State.storePay_pay_wf _ (of_decide_eq_true hm) hpay⟩
  | _ => exact ⟨hrx, hpay⟩

/-! ## The receive window -/

theorem windowBacked_of_rxlen_zero {s : State} (h : s.rxlen = 0) : windowBacked s := by
  simp [windowBacked, h]

theorem windowBacked_appendByte {s : State} (b : Byte) (hs : windowBacked s) : windowBacked (s.appendByte b) := by
  rcases State.appendByte_cases s b with ⟨hlt, he⟩ | ⟨-, he⟩ <;> rw [he]
  · have hsucc := rxlen_succ_toNat hlt
    refine ⟨by rw [hsucc]; exact hlt, fun i hi => ?_⟩
    rw [hsucc] at hi
    by_cases hie : i = s.rxlen.toNat
    · simp [hie]
    · simpa [Memory.lookup_write_other _ b hie] using hs.2 i (by omega)
  · exact hs

theorem exec_keeps_windowBacked {i : Instr} {s t : State} (h : exec i s = .next t) (hs : windowBacked s) :
    windowBacked t := by
  obtain ⟨-, rfl⟩ := exec_next_iff.1 h
  cases i with
  | parse => simpa [windowBacked, Instr.effect] using hs
  | wrRxData d => exact windowBacked_appendByte (byteOf d 0) hs
  | rxClear => exact windowBacked_of_rxlen_zero rfl
  | softReset => exact windowBacked_of_rxlen_zero rfl
  | _ => exact hs

/-! ## The outcome codes -/

/-- NEED is 1 to 255 when PARSE asks for more, and a cause stands exactly beside BadHeader (R140). -/
theorem outcomeCoded_parse (s : State) : outcomeCoded (s.parseEffect (rxWire s) s.parseDecision) := by
  have hlen := (rxWire s).b2.isLt
  rw [State.parseDecision_eq]
  rcases parseOutcome_cases s.rxlen.toNat (rxWire s) s.expect with ⟨_, he⟩ | ⟨_, _, he⟩ | ⟨_, _, _, he⟩ |
    ⟨_, _, _, he⟩ | ⟨_, _, _, _, he⟩ | ⟨_, _, _, he⟩ <;> rw [he] <;> simp [outcomeCoded, State.parseEffect]
  all_goals omega

theorem outcomeCoded_of_result_none {s : State} (hr : s.status.result = .none) (hc : s.status.badCause = .none)
    (hn : s.need = 0) (hb : s.badinfo = { a := 0, b := 0 }) : outcomeCoded s := by
  simp [outcomeCoded, hr, hc, hn, hb]

theorem exec_keeps_outcomeCoded {i : Instr} {s t : State} (h : exec i s = .next t) (hs : outcomeCoded s) :
    outcomeCoded t := by
  obtain ⟨-, rfl⟩ := exec_next_iff.1 h
  cases i with
  | parse => exact outcomeCoded_parse s
  | wrRxData d =>
    obtain ⟨_, _, _, he⟩ := State.appendByte_frame s (byteOf d 0)
    rw [Instr.effect, he]
    exact hs
  | build => exact outcomeCoded_of_result_none rfl rfl rfl rfl
  | softReset => exact outcomeCoded_of_result_none rfl rfl rfl rfl
  | _ => exact hs

/-! ## The header record -/

/-- With HDR_VALID set, PARSE has found the header it loads valid (R137, R140). -/
theorem recordFlagged_parse (s : State) : recordFlagged (s.parseEffect (rxWire s) s.parseDecision) := by
  rw [State.parseDecision_eq]
  rcases parseOutcome_cases s.rxlen.toNat (rxWire s) s.expect with ⟨_, he⟩ | ⟨_, _, he⟩ | ⟨_, _, _, he⟩ |
    ⟨_, hv, _, he⟩ | ⟨_, hv, _, _, he⟩ | ⟨_, hv, _, he⟩ <;> rw [he] <;>
    simp [recordFlagged, State.parseEffect, wireOf_hdrOfWire, *]

theorem allZero_iff (w : Wire) : allZero w = true ↔ w.b0 = 0 ∧ w.b1 = 0 ∧ w.b2 = 0 ∧ w.b3 = 0 ∧ w.b4 = 0 := by
  simp [allZero, ← BitVec.toNat_inj, and_assoc]

/-- A header completed over the payload's CRC is valid: its LRC is right by construction, and of an empty payload the CRC
is the seed, so that its five bytes are never all zero (R131, R148). -/
theorem validHeader_completeHeader (s : State) :
    validHeader (wireOf (s.completeHeader (crc16 (payload s))).hdr (crc16 (payload s))) = true := by
  have hz : allZero (wireOf (s.completeHeader (crc16 (payload s))).hdr (crc16 (payload s))) = false := by
    rw [Bool.eq_false_iff, ne_eq, allZero_iff]
    rintro ⟨-, -, hlen, hlo, -⟩
    have hp : payload s = [] := by
      have : s.hdr.len = 0 := hlen
      simp [payload, payBytes, this]
    rw [hp] at hlo
    have hseed : crcLo 0xFFFF#16 = 0 := hlo
    exact absurd hseed (by decide)
  have hlrc : lrcOk (wireOf (s.completeHeader (crc16 (payload s))).hdr (crc16 (payload s))) = true := by
    simp [lrcOk, wireLrc, wireOf]
  rw [validHeader, hlrc, hz]
  rfl

theorem exec_keeps_recordFlagged {i : Instr} {s t : State} (h : exec i s = .next t) (hs : recordFlagged s) :
    recordFlagged t := by
  obtain ⟨-, rfl⟩ := exec_next_iff.1 h
  cases i with
  | parse => exact recordFlagged_parse s
  | updateHeader =>
    obtain ⟨hok, hflags, -⟩ := hs
    exact ⟨hok, hflags, fun _ _ => validHeader_completeHeader s⟩
  | wrRxData d =>
    obtain ⟨_, _, _, he⟩ := State.appendByte_frame s (byteOf d 0)
    rw [Instr.effect, he]
    exact hs
  | build => simp [recordFlagged, Instr.effect]
  | softReset => simp [recordFlagged, Instr.effect, State.reset]
  | _ => exact hs

/-! ## The CRC result -/

theorem crcCurrent_of_cleared {s : State} (hd : s.status.crcDone = false) (hg : s.status.crcGood = false) :
    crcCurrent s := by
  simp [crcCurrent, hd, hg]

theorem State.parseEffect_crcDone (s : State) (w : Wire) (o : ParseOutcome) :
    (s.parseEffect w o).status.crcDone = false := by cases o <;> rfl

theorem State.parseEffect_crcGood (s : State) (w : Wire) (o : ParseOutcome) :
    (s.parseEffect w o).status.crcGood = false := by cases o <;> rfl

/-- Whatever changes the payload, the header record or CALC_CRC clears or sets CRC_DONE with it (R30). -/
theorem exec_keeps_crcCurrent {i : Instr} {s t : State} (h : exec i s = .next t) (hs : crcCurrent s) :
    crcCurrent t := by
  obtain ⟨-, rfl⟩ := exec_next_iff.1 h
  cases i with
  | crcCheck => exact ⟨fun hd => (by cases hd), fun _ => ⟨rfl, beq_iff_eq⟩⟩
  | parse => exact crcCurrent_of_cleared (State.parseEffect_crcDone _ _ _) (State.parseEffect_crcGood _ _ _)
  | updateHeader => exact crcCurrent_of_cleared rfl rfl
  | build => exact crcCurrent_of_cleared rfl rfl
  | wrPay k d => exact crcCurrent_of_cleared rfl rfl
  | softReset => exact crcCurrent_of_cleared rfl rfl
  | wrRxData d =>
    obtain ⟨_, _, _, he⟩ := State.appendByte_frame s (byteOf d 0)
    rw [Instr.effect, he]
    exact hs
  | _ => exact hs

/-! ## The whole invariant -/

theorem exec_keeps_blockInv {i : Instr} {s t : State} (h : exec i s = .next t) (hs : BlockInv s) : BlockInv t := by
  obtain ⟨hram, hwin, hout, hrec, hcrc⟩ := hs
  exact ⟨exec_keeps_ramsCanonical h hram, exec_keeps_windowBacked h hwin, exec_keeps_outcomeCoded h hout,
    exec_keeps_recordFlagged h hrec, exec_keeps_crcCurrent h hcrc⟩

/-- The register reset gives the invariant over any canonical RAMs (R210). -/
theorem blockInv_resetRegisters {s : State} (hs : ramsCanonical s) : BlockInv s.resetRegisters :=
  ⟨hs, windowBacked_of_rxlen_zero rfl, outcomeCoded_of_result_none rfl rfl rfl rfl,
    by simp [recordFlagged, State.reset], crcCurrent_of_cleared rfl rfl⟩

theorem fetchTxn_next {t : Txn} {s u : State} {o : Option Instr} (h : fetchTxn t s = .next (o, u)) :
    u = s ∧ ∃ i, o = some i := by
  rcases fetchTxn_cases t s with ⟨_, he⟩ | ⟨_, off, _, he⟩ | ⟨_, i, _, he⟩ <;> rw [he] at h <;> cases h
  exact ⟨rfl, i, rfl⟩

theorem fetchBus_next {base : Nat} {b : HostTxn} {s u : State} {o : Option Instr}
    (h : fetchBus base b s = .next (o, u)) : u = s ∧ ∃ i, o = some i := by
  unfold fetchBus at h
  split at h
  · cases h
  · exact fetchTxn_next h

/-- All a step that completes can have done: an operation on the state with its event taken, nothing, or a reset event. -/
theorem stepAt_next {base : Nat} {s t : State} (h : stepAt base s = .next t) :
    (∃ i rest, exec i { s with pending := rest } = .next t) ∨ t = s ∨
    (∃ rest, t = ({ s with pending := rest } : State).assertReset) ∨
    ∃ rest, t = ({ s with pending := rest } : State).releaseReset := by
  unfold stepAt at h
  cases hp : s.pending with
  | nil =>
    rw [fetch_idle hp] at h
    cases h
    exact .inr (.inl rfl)
  | cons e rest =>
    cases e with
    | resetAssert =>
      rw [fetch_resetAssert hp] at h
      cases h
      exact .inr (.inr (.inl ⟨rest, rfl⟩))
    | resetRelease =>
      rw [fetch_resetRelease hp] at h
      cases h
      exact .inr (.inr (.inr ⟨rest, rfl⟩))
    | txn x =>
      rw [fetch_txn hp] at h
      split at h
      · obtain ⟨rfl, -⟩ := fetchTxn_next ‹_›
        exact .inl ⟨_, rest, h⟩
      · obtain ⟨-, i, hi⟩ := fetchTxn_next ‹_›
        cases hi
      all_goals cases h
    | bus b =>
      rw [fetch_bus hp] at h
      split at h
      · obtain ⟨rfl, -⟩ := fetchBus_next ‹_›
        exact .inl ⟨_, rest, h⟩
      · obtain ⟨-, i, hi⟩ := fetchBus_next ‹_›
        cases hi
      all_goals cases h

/-- Settles O52: an operation keeps each part of the invariant, a reset establishes it, and no part of it speaks of the
host's events or the reset input. -/
theorem everyStepKeepsTheInvariant : Obligations.EveryStepKeepsTheInvariant := by
  intro s t hs h
  rcases stepAt_next h with ⟨i, rest, hi⟩ | rfl | ⟨rest, rfl⟩ | ⟨rest, rfl⟩
  · exact exec_keeps_blockInv hi hs
  · exact hs
  · exact blockInv_resetRegisters hs.1
  · exact hs

/-- Settles O53: `State.reset` is a register reset over empty RAMs. -/
theorem invariantHoldsAtReset : Obligations.InvariantHoldsAtReset :=
  blockInv_resetRegisters (s := State.reset) ⟨State.reset_rxbuf_wf, State.reset_pay_wf⟩

end Sys2Proof.Machine
end

section
/-! Proofs: the register map as offset ranges, and what the decoder gives over it (R22, R53, R80, R87, R194, R195). -/

namespace Sys2Proof.Machine

/-! ## Mapped and reserved offsets -/

/-- The registers of R22 stand at 0x000 to 0x038 and at 0x040 to 0x054. -/
theorem regAt_isSome_iff {off : Nat} (ha : off % 4 = 0) :
    (regAt off).isSome = true ↔ off ≤ 0x038 ∨ (0x040 ≤ off ∧ off ≤ 0x054) := by
  constructor
  · intro h
    obtain ⟨r, hr⟩ := Option.isSome_iff_exists.1 h
    rw [← regAt_some hr]
    cases r <;> decide
  · intro h
    have hall : ∀ k < 22, k ≠ 15 → (regAt (4 * k)).isSome = true := by decide
    have hk := hall (off / 4) (by omega) (by omega)
    rwa [show 4 * (off / 4) = off by omega] at hk

/-- The decoder's map selects a target exactly at the mapped offsets of R22. -/
theorem targetAt_isSome_iff {off : Nat} (ha : off % 4 = 0) : (targetAt off).isSome = true ↔ mappedOffset off := by
  unfold targetAt mappedOffset
  simp only [rxbufBase, payBase, rawBase, Config.rxCap, Config.payCap, Config.maxPacket, ha, true_and]
  split_ifs
  · rw [Option.isSome_map, regAt_isSome_iff ha]; omega
  all_goals simp only [Option.isSome_some, Option.isSome_none, Bool.false_eq_true, true_iff, false_iff]; omega

/-- A mapped offset is that of a target in the map. -/
theorem exists_target_of_mapped {off : Nat} (h : mappedOffset off) : ∃ g : Target, g.inRange = true ∧ g.off = off := by
  obtain ⟨g, hg⟩ := Option.isSome_iff_exists.1 ((targetAt_isSome_iff h.1).2 h)
  obtain ⟨ho, hr⟩ := targetAt_some h.1 hg
  exact ⟨g, hr, ho⟩

/-! ## Full accesses -/

theorem decode_fullRead {g : Target} (h : g.inRange = true) : decode (fullRead g.off) = .ok (decodeRead g) :=
  decode_target h .read

theorem decode_fullWrite {g : Target} (h : g.inRange = true) (d : Word) :
    decode (fullWrite g.off d) = .ok (decodeWrite d g) :=
  decode_target h (.write d)

/-- An illegal word at CMD is `WR CMD` (R81, R84). -/
theorem decodeCommand_of_illegal {w : Word} (h : legalCommand w = false) : decodeCommand w = .wrCmd w := by
  unfold decodeCommand
  split
  · rfl
  · have hopc : ∀ n : Nat, (cmdOpc w).toNat = n → assignedOpcodes.contains (BitVec.ofNat 8 n) = false := by
      rintro n rfl
      simp_all [legalCommand]
    split
    case h_15 => rfl
    all_goals exact absurd (hopc _ ‹_›) (by decide)

/-- A target that ignores writes: its write is the ignored write (R52, R87). -/
theorem decodeWrite_of_ignoresWrites {g : Target} (d : Word) (h : g.ignoresWrites = true) :
    decodeWrite d g = .wrIgnored g d := by
  cases g with
  | reg r => cases r <;> simp_all [Target.ignoresWrites, decodeWrite]
  | pay i => cases h
  | _ => rfl

/-! ## Bus errors -/

theorem Access.full_iff (a : Access) : a.full = true ↔ a = .word 0xF#4 := by
  cases a <;> simp [Access.full]

/-- Width and alignment come first in the order of R195. -/
theorem Txn.busError_access {t : Txn} (h : t.access ≠ .word 0xF#4 ∨ t.off % 4 ≠ 0) : t.busError = some .access := by
  have hc : (!t.access.full || !aligned t.off) = true := by
    simpa [← Access.full_iff, aligned] using h
  rw [Txn.busError, if_pos hc]

theorem Txn.busError_reserved {t : Txn} (hf : t.access = .word 0xF#4) (ha : t.off % 4 = 0) (hm : ¬ mappedOffset t.off) :
    t.busError = some .reserved := by
  rw [← targetAt_isSome_iff ha] at hm
  simpa [Txn.busError, (Access.full_iff _).2 hf, aligned, ha] using hm

theorem decode_of_busError {t : Txn} {c : BusErrorCause} (hl : t.off < 0x4000) (h : t.busError = some c) :
    decode t = .ok (.busError t) := by
  rcases decode_cases t with ⟨hout, _⟩ | ⟨_, _, hd⟩ | ⟨_, hf, g, _, ho, hg, _⟩
  · rw [Config.windowBytes_eq] at hout
    omega
  · exact hd
  · have ha : t.off % 4 = 0 := ho ▸ g.off_aligned
    simp [Txn.busError, (Access.full_iff _).2 hf, aligned, ha, hg] at h

theorem exec_busError {t : Txn} {c : BusErrorCause} (s : State) (h : t.busError = some c) :
    exec (.busError t) s = .fault (.busError t.off c) := by
  show execBusError t s = _
  rw [execBusError_eq, h]
  rfl

/-! ## The statements -/

/-- Settles O11: the decoder gives the bus error row, with the first cause in the order of R195. -/
theorem undecodableTransactionsStopWithBusError : Obligations.UndecodableTransactionsStopWithBusError := by
  intro t s hl
  constructor
  · intro h
    have hb := Txn.busError_access h
    exact ⟨decode_of_busError hl hb, exec_busError s hb⟩
  · intro hf ha hm
    have hb := Txn.busError_reserved hf ha hm
    exact ⟨decode_of_busError hl hb, exec_busError s hb⟩

/-- Settles O5: a mapped offset is that of one target, whose kind gives the row; any other aligned one is reserved. -/
theorem busOperationsAreSelectedByOffset : Obligations.BusOperationsAreSelectedByOffset := by
  intro off d hl ha
  constructor
  · intro hm
    obtain ⟨g, hr, rfl⟩ := exists_target_of_mapped hm
    rw [decode_fullWrite hr, decode_fullRead hr]
    cases g with
    | reg r =>
      cases r with
      | cmd => simpa [Target.off, Reg.off, decodeWrite, decodeRead] using decodeCommand_of_illegal
      | _ => simp [Target.off, Reg.off, decodeWrite, decodeRead]
    | rxbuf i =>
      simp only [Target.inRange, Config.rxCap, decide_eq_true_eq] at hr
      simp [Target.off, rxbufBase, decodeWrite, decodeRead]
      omega
    | pay i =>
      simp only [Target.inRange, Config.payCap, decide_eq_true_eq] at hr
      simp [Target.off, payBase, decodeWrite, decodeRead]
      omega
    | raw i =>
      simp only [Target.inRange, Config.maxPacket, decide_eq_true_eq] at hr
      simp [Target.off, rawBase, decodeWrite, decodeRead]
      omega
  · intro hm
    exact ⟨decode_of_busError hl (Txn.busError_reserved rfl ha hm),
      decode_of_busError hl (Txn.busError_reserved rfl ha hm)⟩

/-- Settles O45: such a target ignores writes, so that its write is the ignored write. -/
theorem writesToReadOnlyTargetsAreIgnored : Obligations.WritesToReadOnlyTargetsAreIgnored := by
  intro g d s hr hreg hpay
  have hi : g.ignoresWrites = true := by
    cases g with
    | reg r => have := hreg r rfl; cases r <;> simp_all [Target.ignoresWrites]
    | pay k => exact absurd rfl (hpay k)
    | _ => rfl
  exact ⟨by rw [decode_fullWrite hr, decodeWrite_of_ignoresWrites d hi], _, execWrIgnored_of_inRange d s hr⟩

/-- Settles O4: each transaction is the full access of its target, so the decoder computes it. -/
theorem wordsWrittenOutFromTheEncodingDecode : Obligations.WordsWrittenOutFromTheEncodingDecode :=
  ⟨rfl, rfl, rfl, rfl, rfl, rfl, rfl, rfl, rfl⟩

/-! ## Host addresses -/

theorem stepAt_bus {base : Nat} {s : State} {h : HostTxn} {t : Txn} {rest : List HostEvent}
    (hp : s.pending = .bus h :: rest) (ht : h.toTxn base = some t) :
    stepAt base s = stepAt base { s with pending := .txn t :: rest } := by
  unfold stepAt
  rw [fetch_bus hp, fetch_txn (t := t) (rest := rest) rfl, fetchBus, ht]

theorem stepAt_txn {base : Nat} {s : State} {t : Txn} {i : Instr} {rest : List HostEvent}
    (hp : s.pending = .txn t :: rest) (hr : s.inReset = false) (hd : decode t = .ok i) :
    stepAt base s = exec i { s with pending := rest } := by
  unfold stepAt
  rw [fetch_txn hp]
  simp [fetchTxn, hr, hd]

/-- Settles O54: an address inside the 16 KiB is taken as its offset, before anything else is looked at. -/
theorem hostAddressesAreTakenFromTheBase : Obligations.HostAddressesAreTakenFromTheBase := by
  refine ⟨fun _ => rfl, fun base s h rest hp => ⟨fun off ho ha => ?_, fun hout => ?_⟩⟩
  · have hstep := stepAt_bus hp (HostTxn.toTxn_of_offset ha ho)
    refine ⟨hstep, fun i hr hd => ?_⟩
    rw [hstep]
    exact stepAt_txn rfl hr hd
  · unfold stepAt
    rw [fetch_bus hp, fetchBus, HostTxn.toTxn_of_outside hout]

end Sys2Proof.Machine
end

section
/-! Proofs: the words that reads return, in numbers (R22 to R48, R72, R177). -/

namespace Sys2Proof.Machine

/-! ## Words in numbers -/

theorem toNat_append_eq {m n : Nat} (a : BitVec m) (b : BitVec n) : (a ++ b).toNat = a.toNat * 2 ^ n + b.toNat := by
  rw [BitVec.toNat_append, ← Nat.shiftLeft_add_eq_or_of_lt b.isLt, Nat.shiftLeft_eq]

theorem zext_eq_ofNat {n : Nat} (v : BitVec n) : zext v = BitVec.ofNat 32 v.toNat :=
  (BitVec.ofNat_toNat 32 v).symm

theorem byteOf_zero_toNat (d : Word) : (byteOf d 0).toNat = d.toNat % 256 := by simp [byteOf]

/-- A word masked to its low `k` bits is the word mod `2 ^ k`. -/
theorem and_mask_eq_ofNat {n : Nat} (d : BitVec n) (k : Nat) (hk : k ≤ n) :
    d &&& BitVec.ofNat n (2 ^ k - 1) = BitVec.ofNat n (d.toNat % 2 ^ k) := by
  apply BitVec.eq_of_toNat_eq
  have hpow : 2 ^ k ≤ 2 ^ n := Nat.pow_le_pow_right (by decide) hk
  have hpos : 0 < 2 ^ k := Nat.two_pow_pos k
  have hmod : d.toNat % 2 ^ k < 2 ^ k := Nat.mod_lt _ hpos
  rw [BitVec.toNat_and, BitVec.toNat_ofNat, BitVec.toNat_ofNat, Nat.mod_eq_of_lt (by omega),
    Nat.mod_eq_of_lt (by omega), Nat.and_two_pow_sub_one_eq_mod]

theorem zext_byteOf_zero (d : Word) : zext (byteOf d 0) = d &&& 0xFF#32 := by
  rw [zext_eq_ofNat, byteOf_zero_toNat]
  exact (and_mask_eq_ofNat d 8 (by decide)).symm

theorem toNat_getLsbD (d : Word) (k : Nat) : (d.getLsbD k).toNat = d.toNat / 2 ^ k % 2 := by
  rw [← BitVec.testBit_toNat, Nat.toNat_testBit]

theorem getLsbD_of_toNat {d : Word} {k : Nat} {b : Bool} (h : d.toNat / 2 ^ k % 2 = b.toNat) : d.getLsbD k = b := by
  rw [← toNat_getLsbD] at h
  cases b with
  | false => exact Bool.toNat_eq_zero.1 h
  | true => exact Bool.toNat_eq_one.1 h

/-! ## Reads -/

/-- A read of a mapped target completes with its word and changes nothing of the block (R64, R177). -/
theorem readsWord_rdReg {g : Target} {s : State} {w : Word} (hg : g.inRange = true) (hw : targetWord s g = w) :
    readsWord (.rdReg g) s w :=
  ⟨_, hw ▸ busRead_of_inRange s hg⟩

theorem readsWord_reg {r : Reg} {s : State} {w : Word} (hw : regWord s r = w) : readsWord (.rdReg (.reg r)) s w :=
  readsWord_rdReg rfl hw

theorem readsWord_rdRaw {k : Nat} {s : State} (hk : k < 260) : readsWord (.rdRaw k) s (zext (rawByte s k)) :=
  ⟨_, busRead_of_inRange s (g := .raw k) (decide_eq_true hk)⟩

theorem targetWord_rxbuf_of_lt {i : Nat} {s : State} (h : i < s.rxlen.toNat) :
    targetWord s (.rxbuf i) = zext (rxByte s i) :=
  if_neg (Nat.not_le.2 h)

theorem targetWord_rxbuf_of_le {i : Nat} {s : State} (h : s.rxlen.toNat ≤ i) :
    targetWord s (.rxbuf i) = zext (Config.freeByte s.draws) :=
  if_pos h

/-! ## The words with more than one field -/

theorem statusWord_toNat (t : Status) :
    (statusWord t).toNat =
      t.result.code.toNat + 4 * t.badCause.code.toNat + 16 * t.hdrValid.toNat + 32 * t.pktValid.toNat +
        64 * t.crcDone.toNat + 128 * t.crcGood.toNat + 256 * t.ovf.toNat + 512 * t.cmdErr.toNat := by
  refine (toNat_append_eq _ _).trans ?_
  repeat rw [toNat_append_eq]
  simp
  omega

theorem regWord_hdr (s : State) :
    regWord s .hdr = BitVec.ofNat 32 (s.hdr.lrc.toNat + 0x100 * s.hdr.id.toNat + 0x10000 * s.hdr.len.toNat) := by
  have hn : (regWord s .hdr).toNat = s.hdr.lrc.toNat + 0x100 * s.hdr.id.toNat + 0x10000 * s.hdr.len.toNat := by
    refine (toNat_append_eq _ _).trans ?_
    repeat rw [toNat_append_eq]
    simp
    omega
  rw [← hn, BitVec.ofNat_toNat, BitVec.setWidth_eq]

theorem regWord_badinfo (s : State) :
    regWord s .badinfo = BitVec.ofNat 32 (s.badinfo.a.toNat + 0x100 * s.badinfo.b.toNat) := by
  have hn : (regWord s .badinfo).toNat = s.badinfo.a.toNat + 0x100 * s.badinfo.b.toNat := by
    refine (toNat_append_eq _ _).trans ?_
    repeat rw [toNat_append_eq]
    simp
    omega
  rw [← hn, BitVec.ofNat_toNat, BitVec.setWidth_eq]

theorem regWord_expect (s : State) :
    regWord s .expect = BitVec.ofNat 32 (s.expect.len.toNat + 0x100 * s.expect.en.toNat) := by
  have hn : (regWord s .expect).toNat = s.expect.len.toNat + 0x100 * s.expect.en.toNat := by
    refine (toNat_append_eq _ _).trans ?_
    repeat rw [toNat_append_eq]
    simp
    omega
  rw [← hn, BitVec.ofNat_toNat, BitVec.setWidth_eq]

theorem regWord_lrcOut (s : State) : regWord s .lrcOut = BitVec.ofNat 32 ((256 - s.lrcSum.toNat) % 256) := by
  rw [← lrcOfSum_toNat]
  exact zext_eq_ofNat _

/-! ## The statements -/

/-- Settles O40: the word is the sum of its fields at their places. -/
theorem statusWordHasItsFieldsInPlace : Obligations.StatusWordHasItsFieldsInPlace := by
  intro s
  have hn := statusWord_toNat s.status
  have hres := s.status.result.code.isLt
  have hcause := s.status.badCause.code.isLt
  have hv := s.status.hdrValid.toNat_lt
  have hp := s.status.pktValid.toNat_lt
  have hd := s.status.crcDone.toNat_lt
  have hg := s.status.crcGood.toNat_lt
  have ho := s.status.ovf.toNat_lt
  have he := s.status.cmdErr.toNat_lt
  refine ⟨statusWord s.status, readsWord_reg rfl, ?_, ?_, getLsbD_of_toNat ?_, getLsbD_of_toNat ?_,
    getLsbD_of_toNat ?_, getLsbD_of_toNat ?_, getLsbD_of_toNat ?_, getLsbD_of_toNat ?_, ?_⟩
  · rw [show (statusWord s.status).toNat % 4 = s.status.result.code.toNat by omega]
    cases s.status.result <;> rfl
  · rw [show (statusWord s.status).toNat / 4 % 4 = s.status.badCause.code.toNat by omega]
    cases s.status.badCause <;> rfl
  all_goals omega

/-- Settles O41: a read completes with the register's word, and each word is its fields in numbers. -/
theorem registerReadsReturnTheirFields : Obligations.RegisterReadsReturnTheirFields := by
  intro s
  have hexp : regWord s .expect = BitVec.ofNat 32 (s.expect.len.toNat + if s.expect.en = true then 0x100 else 0) := by
    rw [regWord_expect]
    cases s.expect.en <;> rfl
  exact ⟨readsWord_reg rfl, readsWord_reg rfl, readsWord_reg rfl, readsWord_reg (zext_eq_ofNat _),
    readsWord_reg (regWord_hdr s), readsWord_reg (zext_eq_ofNat _), readsWord_reg (regWord_badinfo s),
    readsWord_reg hexp, readsWord_reg (zext_eq_ofNat _), readsWord_reg rfl, readsWord_reg (zext_eq_ofNat _),
    readsWord_reg (zext_eq_ofNat _), readsWord_reg (regWord_lrcOut s), readsWord_reg (zext_eq_ofNat _),
    readsWord_reg rfl, readsWord_reg rfl, readsWord_reg rfl, readsWord_reg rfl, readsWord_reg rfl, readsWord_reg rfl⟩

/-- Settles O42: below RXLEN the byte of the RAM, at or above it a byte drawn. -/
theorem windowReadsReturnTheirBytes : Obligations.WindowReadsReturnTheirBytes := by
  intro s i
  refine ⟨fun hi hlt => ?_, fun hi hle => ⟨Config.freeByte s.draws, ?_⟩, fun hi => ?_⟩
  · exact readsWord_rdReg (decide_eq_true hi) ((targetWord_rxbuf_of_lt hlt).trans (zext_eq_ofNat _))
  · exact readsWord_rdReg (decide_eq_true hi) ((targetWord_rxbuf_of_le hle).trans (zext_eq_ofNat _))
  · exact readsWord_rdReg (decide_eq_true hi) (zext_eq_ofNat _)

/-- Settles O39: each offset of the table is a register's, whose word at reset is the table's; RAW of a record of zeros
and no payload is 0. -/
theorem resetReadsGiveTheTableValues : Obligations.ResetReadsGiveTheTableValues := by
  constructor
  · intro p hp
    obtain ⟨r, -, hoff, hword⟩ : ∃ r ∈ Reg.all, r.off = p.1 ∧ regWord State.reset r = p.2 := by
      revert p
      decide
    exact ⟨_, hoff ▸ decode_fullRead (g := .reg r) rfl, readsWord_reg hword⟩
  · intro k hk
    have hz : rawByte State.reset k = 0 := by
      unfold rawByte
      split <;> simp [State.reset, crcLo, crcHi]
    have hread := readsWord_rdRaw (s := State.reset) hk
    rwa [hz] at hread

/-- Settles O44: the field written is the one read, and a RAM read after its write is the byte written. -/
theorem writtenWordsAreReadBack : Obligations.WrittenWordsAreReadBack := by
  intro d s
  refine ⟨⟨_, rfl, readsWord_reg rfl⟩, ⟨_, rfl, readsWord_reg ?_⟩, ⟨_, rfl, readsWord_reg rfl⟩,
    ⟨_, rfl, readsWord_reg rfl⟩, fun i hi => ?_, fun hlt => ?_⟩
  · have hen := toNat_getLsbD d 8
    have hlen := byteOf_zero_toNat d
    rw [regWord_expect]
    refine Eq.trans (congrArg (BitVec.ofNat 32) ?_) (and_mask_eq_ofNat d 9 (by decide)).symm
    simp only [State.writeDone_expect, expectOf, hen, hlen]
    omega
  · refine ⟨_, execWrPay_of_lt d s hi, readsWord_rdReg (decide_eq_true hi) ?_⟩
    have hb : payByte (s.storePay i (byteOf d 0)).writeDone i = byteOf d 0 :=
      (payByte_storePay s i i (byteOf d 0)).trans (if_pos rfl)
    exact (congrArg zext hb).trans (zext_byteOf_zero d)
  · refine ⟨_, rfl, readsWord_rdReg (decide_eq_true hlt) ?_⟩
    have hb : rxByte (s.appendByte (byteOf d 0)).writeDone s.rxlen.toNat = byteOf d 0 :=
      (rxByte_appendByte s (byteOf d 0) hlt s.rxlen.toNat).trans (if_pos rfl)
    have hlen : s.rxlen.toNat < (s.appendByte (byteOf d 0)).writeDone.rxlen.toNat := by
      rw [State.writeDone_rxlen, State.appendByte, if_pos hlt]
      exact (rxlen_succ_toNat hlt).symm ▸ Nat.lt_succ_self _
    exact (targetWord_rxbuf_of_lt hlen).trans ((congrArg zext hb).trans (zext_byteOf_zero d))

end Sys2Proof.Machine
end

section
/-! Proofs: the LRC engine over a byte sequence, and PARSE again and over another window (R47, R50, R108, R142). -/

namespace Sys2Proof.Machine

/-! ## The LRC engine -/

theorem byteOf_setWidth_zero (b : Byte) : byteOf (b.setWidth 32) 0 = b := by
  apply BitVec.eq_of_toNat_eq
  rw [byteOf_zero_toNat, BitVec.toNat_setWidth_of_le (by decide), Nat.mod_eq_of_lt b.isLt]

/-- Loading ARG and updating adds each byte to whatever the sum holds. -/
theorem execAll_lrcUpdates (bs : List Byte) (s : State) :
    ∃ t, execAll (bs.flatMap (fun b => [.wrArg (b.setWidth 32), .lrcUpdate])) s = .next t ∧
      t.lrcSum = s.lrcSum + byteSum bs := by
  induction bs generalizing s with
  | nil => exact ⟨s, rfl, (BitVec.add_zero _).symm⟩
  | cons b bs ih =>
    obtain ⟨t, hrun, hsum⟩ := ih ((Instr.lrcUpdate).effect ((Instr.wrArg (b.setWidth 32)).effect s))
    refine ⟨t, hrun, ?_⟩
    have hb : byteSum (b :: bs) = b + byteSum bs := by
      rw [← List.singleton_append, byteSum_append]
      simp [byteSum]
    have hstep : ((Instr.lrcUpdate).effect ((Instr.wrArg (b.setWidth 32)).effect s)).lrcSum = s.lrcSum + b :=
      congrArg (s.lrcSum + ·) (byteOf_setWidth_zero b)
    rw [hsum, hstep, hb, BitVec.add_assoc]

/-- Settles O17: the sum after LRC_INIT is that of the bytes added, and LRC_OUT reads its negation. -/
theorem lrcEngineAccumulatesItsBytes : Obligations.LrcEngineAccumulatesItsBytes := by
  intro bs s
  obtain ⟨t, hrun, hsum⟩ := execAll_lrcUpdates bs ((Instr.lrcInit).effect s)
  have hs : t.lrcSum = byteSum bs := hsum.trans (BitVec.zero_add _)
  refine ⟨t, hrun, by rw [hs, byteSum_toNat], readsWord_reg ?_⟩
  show zext (lrcOfSum t.lrcSum) = _
  rw [hs]
  rfl

/-! ## PARSE again -/

/-- The cell at `i` already holds `b` and a write of `b` there changes nothing; a write at a higher index keeps it so,
whatever the memory. -/
theorem Memory.write_absorbed_of_lt {m : Memory} {i j : Nat} {b : Byte} (c : Byte) (hij : i < j)
    (h : m.write i b = m) : (m.write j c).write i b = m.write j c := by
  induction m with
  | nil => cases h
  | cons p m ih =>
    obtain ⟨k, v⟩ := p
    rcases Nat.lt_trichotomy i k with hik | rfl | hik
    · simp [Memory.write, hik] at h
    · simp_all [Memory.write, show ¬ j < i by omega, show ¬ j = i by omega]
    · simp_all [Memory.write, show ¬ j < k by omega, show ¬ j = k by omega, show ¬ i < k by omega, show ¬ i = k by omega]

theorem Memory.write_writeAll_absorbed {m : Memory} {i j : Nat} {b : Byte} (bs : List Byte) (hij : i < j)
    (h : m.write i b = m) : (m.writeAll j bs).write i b = m.writeAll j bs := by
  induction bs generalizing m j with
  | nil => exact h
  | cons c bs ih => exact ih (by omega) (Memory.write_absorbed_of_lt c hij h)

/-- Writing the same run of bytes again changes nothing. -/
theorem Memory.writeAll_writeAll (m : Memory) (i : Nat) (bs : List Byte) :
    (m.writeAll i bs).writeAll i bs = m.writeAll i bs := by
  induction bs generalizing m i with
  | nil => rfl
  | cons b bs ih =>
    have hb := Memory.write_writeAll_absorbed bs (Nat.lt_succ_self i) (Memory.write_write m i b)
    simp only [Memory.writeAll]
    rw [hb, ih]

/-- Each outcome's effect, taken twice, is the effect taken once: it reads only what it leaves unchanged. -/
theorem State.parseEffect_parseEffect (s : State) (w : Wire) (o : ParseOutcome) :
    ((s.parseEffect w o).writeDone.parseEffect w o).writeDone = (s.parseEffect w o).writeDone := by
  cases o with
  | lenMismatch =>
    exact congrArg (fun p => { (s.parseEffect w .lenMismatch).writeDone with pay := p })
      (Memory.writeAll_writeAll s.pay 0 (rxBytes s Config.hdrLen w.b2.toNat))
  | ok =>
    exact congrArg (fun p => { (s.parseEffect w .ok).writeDone with pay := p })
      (Memory.writeAll_writeAll s.pay 0 (rxBytes s Config.hdrLen w.b2.toNat))
  | _ => rfl

/-- Settles O24: PARSE keeps RXLEN, the window and EXPECT, so that the second one decides as the first. -/
theorem parseAgainGivesTheSameState : Obligations.ParseAgainGivesTheSameState := by
  intro s t h
  obtain ⟨-, rfl⟩ := exec_next_iff.1 h
  have hw : rxWire ((Instr.parse).effect s) = rxWire s := by simp [rxWire, rxByte, Instr.effect]
  have hd : ((Instr.parse).effect s).parseDecision = s.parseDecision := by
    rw [State.parseDecision_eq, hw]
    simp [State.parseDecision_eq, Instr.effect]
  show Host.Outcome.next (State.parseEffect _ _ _).writeDone = _
  rw [hw, hd]
  exact congrArg _ (State.parseEffect_parseEffect s _ _)

/-! ## PARSE over another window -/

section
variable {s : State} {m : Memory} (hm : ∀ i, i < s.rxlen.toNat → m.lookup i = s.rxbuf.lookup i)
include hm

theorem rxByte_congr {i : Nat} (hi : i < s.rxlen.toNat) : rxByte { s with rxbuf := m } i = rxByte s i := by
  simp [rxByte, hm i hi]

theorem rxBytes_congr {i n : Nat} (hi : i + n ≤ s.rxlen.toNat) : rxBytes { s with rxbuf := m } i n = rxBytes s i n := by
  refine List.map_congr_left fun k hk => rxByte_congr hm ?_
  have := List.mem_range.1 hk
  omega

theorem rxWire_congr (hn : 5 ≤ s.rxlen.toNat) : rxWire { s with rxbuf := m } = rxWire s := by
  simp [rxWire, rxByte_congr hm (show 0 < s.rxlen.toNat by omega), rxByte_congr hm (show 1 < s.rxlen.toNat by omega),
    rxByte_congr hm (show 2 < s.rxlen.toNat by omega), rxByte_congr hm (show 3 < s.rxlen.toNat by omega),
    rxByte_congr hm (show 4 < s.rxlen.toNat by omega)]

theorem parseDecision_congr : ({ s with rxbuf := m } : State).parseDecision = s.parseDecision := by
  by_cases hn : s.rxlen.toNat < 5
  · show parseOutcome _ _ _ = parseOutcome _ _ _
    rw [parseOutcome, parseOutcome, if_pos hn, if_pos hn]
  · rw [State.parseDecision_eq, rxWire_congr hm (by omega)]
    rfl

/-- PARSE looks at the header bytes only where all five are in the window, and copies the payload only where all of it
is. -/
theorem parseEffect_congr :
    ({ s with rxbuf := m } : State).parseEffect (rxWire { s with rxbuf := m }) s.parseDecision =
      { s.parseEffect (rxWire s) s.parseDecision with rxbuf := m } := by
  rw [State.parseDecision_eq]
  rcases parseOutcome_cases s.rxlen.toNat (rxWire s) s.expect with ⟨_, he⟩ | ⟨_, _, he⟩ | ⟨hn, _, _, he⟩ |
    ⟨hn, _, _, he⟩ | ⟨hn, _, _, _, he⟩ | ⟨hn, _, _, he⟩ <;> rw [he]
  · rfl
  · rfl
  · rw [rxWire_congr hm hn]; rfl
  · rw [rxWire_congr hm hn]; rfl
  · rw [rxWire_congr hm (by omega)]
    exact congrArg (fun bs => { s.parseEffect (rxWire s) .lenMismatch with rxbuf := m, pay := s.pay.writeAll 0 bs })
      (rxBytes_congr hm hn)
  · rw [rxWire_congr hm (by omega)]
    exact congrArg (fun bs => { s.parseEffect (rxWire s) .ok with rxbuf := m, pay := s.pay.writeAll 0 bs })
      (rxBytes_congr hm hn)

end

/-- Settles O25: the outcome, the header and the payload are taken from bytes below RXLEN. -/
theorem parseNeverReadsAboveRxlen : Obligations.ParseNeverReadsAboveRxlen := by
  intro s t m hm h
  obtain ⟨-, rfl⟩ := exec_next_iff.1 h
  show Host.Outcome.next (State.parseEffect _ _ _).writeDone = _
  rw [parseDecision_congr hm, parseEffect_congr hm]
  rfl

end Sys2Proof.Machine
end

section
/-! Proofs: which operations write what, over the whole machine (R24 to R48), and the sticky flags (R31). -/

namespace Sys2Proof.Machine

/-! ## Who writes what -/

/-- A parse takes the snapshot or leaves it (R139). -/
theorem State.parseEffect_tovSnap_cases (s : State) (w : Wire) (o : ParseOutcome) :
    (s.parseEffect w o).tovSnap = s.tovSnap ∨ (s.parseEffect w o).tovSnap = s.tovLatest := by
  cases o with
  | shortHeader | allZero | lrcMismatch => exact .inl rfl
  | shortPayload | lenMismatch | ok => exact .inr rfl

/-- Settles O46: of each operation, what it leaves unchanged is read off its effect, field by field; an append has its two
outcomes. -/
theorem onlyTheseOperationsWriteTheEnvelope : Obligations.OnlyTheseOperationsWriteTheEnvelope := by
  intro i s t h
  obtain ⟨-, rfl⟩ := exec_next_iff.1 h
  cases i with
  | wrRxData d =>
    rcases State.appendByte_cases s (byteOf d 0) with ⟨-, he⟩ | ⟨-, he⟩ <;> simp [Instr.effect, he]
  | softReset => simp [Instr.effect, State.reset]
  | _ => simp [Instr.effect]

/-- Settles O47: so too for the rest, where an append sets OVF only in a full window and a parse may take the snapshot. -/
theorem onlyTheseOperationsWriteTheRest : Obligations.OnlyTheseOperationsWriteTheRest := by
  intro i s t h
  obtain ⟨-, rfl⟩ := exec_next_iff.1 h
  cases i with
  | parse =>
    have hsnap := (State.parseEffect_tovSnap_cases s (rxWire s) s.parseDecision).resolve_left
    simpa [Instr.effect] using hsnap
  | wrRxData d =>
    rcases State.appendByte_cases s (byteOf d 0) with ⟨-, he⟩ | ⟨hfull, he⟩
    · simp +contextual [Instr.effect, he]
    · simp [Instr.effect, he, hfull]
  | softReset => simp [Instr.effect, State.reset]
  | _ => simp +contextual [Instr.effect]

/-- Settles O37: SOFT_RESET is the register reset of R210. -/
theorem softResetRestoresEveryRegister : Obligations.SoftResetRestoresEveryRegister :=
  ⟨rfl, fun _ => ⟨_, rfl⟩⟩

/-! ## The sticky flags -/

/-- The state with the sticky flags at other values. -/
def State.withSticky (s : State) (x y : Bool) : State := { s with status := { s.status with ovf := x, cmdErr := y } }

/-- An operation writes the sticky flags from no other register and every other register from none of them. -/
theorem effect_withSticky (i : Instr) (s : State) (x y : Bool) :
    { (i.effect (s.withSticky x y)).withSticky (i.effect s).status.ovf (i.effect s).status.cmdErr with
      resp := (i.effect s).resp } = i.effect s := by
  cases i with
  | parse =>
    have hd : (s.withSticky x y).parseDecision = s.parseDecision := rfl
    have hw : rxWire (s.withSticky x y) = rxWire s := rfl
    simp only [Instr.effect, hd, hw]
    cases s.parseDecision <;> rfl
  | wrRxData d =>
    rcases State.appendByte_cases s (byteOf d 0) with ⟨hlt, he⟩ | ⟨hfull, he⟩
    · have he' : (s.withSticky x y).appendByte (byteOf d 0) = _ := if_pos hlt
      simp only [Instr.effect, he, he']
      rfl
    · have he' : (s.withSticky x y).appendByte (byteOf d 0) = _ := if_neg (Nat.not_lt.2 hfull)
      simp only [Instr.effect, he, he']
      rfl
  | _ => rfl

/-- Settles O49: whether an operation completes does not depend on the state, and its effect on the rest is the same. -/
theorem stickyFlagsBlockNothing : Obligations.StickyFlagsBlockNothing := by
  intro i s t x y h
  obtain ⟨hm, rfl⟩ := exec_next_iff.1 h
  exact ⟨_, exec_of_inMap _ hm, effect_withSticky i s x y⟩

end Sys2Proof.Machine
end

section
/-! Proofs: what the decoder gives for any offset and for any operation's own transaction (R60, R80, R86), the step in
terms of it (R66, R212, R214), and a read done twice (R64). -/

namespace Sys2Proof.Machine

/-! ## The decoder over all offsets (R60) -/

theorem decode_ok_of_lt {t : Txn} (h : t.off < 0x4000) : ∃ i, decode t = .ok i := by
  rcases decode_cases t with ⟨hout, -⟩ | ⟨-, -, hd⟩ | ⟨-, -, g, -, -, -, hd⟩
  · rw [Config.windowBytes_eq] at hout
    omega
  · exact ⟨_, hd⟩
  · split at hd <;> exact ⟨_, hd⟩

theorem decode_error_of_le {t : Txn} (h : 0x4000 ≤ t.off) : decode t = .error (.offsetOutside t.off) := by
  rcases decode_cases t with ⟨-, hd⟩ | ⟨hin, -⟩ | ⟨hin, -⟩
  · exact hd
  all_goals
    rw [Config.windowBytes_eq] at hin
    omega

/-- Settles O3: the offset alone decides, at the end of the 16 KiB. -/
theorem decoderRejectsOnlyOffsetsOutsideTheBlock : Obligations.DecoderRejectsOnlyOffsetsOutsideTheBlock := by
  intro t
  split
  · exact decode_ok_of_lt ‹_›
  · exact decode_error_of_le (Nat.le_of_not_lt ‹_›)

/-! ## The step, event by event -/

/-- Settles O7: the transaction is taken and decoded, and its operation runs. -/
theorem stepRunsTheDecodedOperation : Obligations.StepRunsTheDecodedOperation :=
  fun _ _ _ _ hp hr hd => stepAt_txn hp hr hd

theorem step_idle {s : State} (hp : s.pending = []) : step s = .next s := by
  rw [step, stepAt, fetch_idle hp]

theorem step_resetRelease {s : State} {rest : List HostEvent} (hp : s.pending = .resetRelease :: rest) :
    step s = .next { s with pending := rest, inReset := false } := by
  rw [step, stepAt, fetch_resetRelease hp]
  rfl

theorem step_txn_inReset {s : State} {t : Txn} {rest : List HostEvent} (hp : s.pending = .txn t :: rest)
    (hr : s.inReset = true) : step s = .fault (.transactionDuringReset t.off) := by
  rw [step, stepAt, fetch_txn hp, fetchTxn, if_pos hr]

theorem step_txn_outside {s : State} {t : Txn} {rest : List HostEvent} (hp : s.pending = .txn t :: rest)
    (hr : s.inReset = false) (ho : 0x4000 ≤ t.off) : step s = .refused (.offsetOutside t.off) := by
  rw [step, stepAt, fetch_txn hp]
  simp [fetchTxn, hr, decode_error_of_le ho]

/-- Settles O8: one equation of the step for each of the four events. -/
theorem stepWithoutADecodedOperation : Obligations.StepWithoutADecodedOperation :=
  fun _ _ _ => ⟨step_idle, step_resetRelease, step_txn_inReset, step_txn_outside⟩

/-! ## An operation's own transaction (R80, R86) -/

theorem inRange_of_readableReg {g : Target} (h : readableReg g = true) : g.inRange = true := by
  cases g with
  | raw k => cases h
  | _ => exact h

theorem decodeRead_of_readableReg {g : Target} (h : readableReg g = true) : decodeRead g = .rdReg g := by
  cases g with
  | raw k => cases h
  | _ => rfl

theorem decode_writeTxn {g : Target} {d : Word} {i : Instr} (hg : g.inRange = true) (hd : decodeWrite d g = i) :
    decode (writeTxn g d) = .ok i :=
  (decode_fullWrite hg d).trans (congrArg _ hd)

theorem decode_readTxn {g : Target} {i : Instr} (hg : g.inRange = true) (hd : decodeRead g = i) :
    decode (readTxn g) = .ok i :=
  (decode_fullRead hg).trans (congrArg _ hd)

/-- The decoder gives a well-formed operation back from its transaction: the target of the transaction is mapped, and
the decoder's choice at that target is the operation. -/
theorem decode_encode {i : Instr} (h : i.wf = true) : decode (encode i) = .ok i := by
  cases i with
  | wrPay k d => exact decode_writeTxn (g := .pay k) h rfl
  | wrCmd w =>
    have hw : legalCommand w = false := by simpa [Instr.wf] using h
    exact decode_writeTxn (g := .reg .cmd) rfl (decodeCommand_of_illegal hw)
  | rdRaw k => exact decode_readTxn (g := .raw k) h rfl
  | rdReg g => exact decode_readTxn (inRange_of_readableReg h) (decodeRead_of_readableReg h)
  | wrIgnored g d =>
    obtain ⟨hg, hi⟩ := Bool.and_eq_true_iff.1 h
    exact decode_writeTxn hg (decodeWrite_of_ignoresWrites d hi)
  | busError t =>
    obtain ⟨hl, hb⟩ := Bool.and_eq_true_iff.1 h
    obtain ⟨c, hc⟩ := Option.isSome_iff_exists.1 hb
    exact decode_of_busError (of_decide_eq_true hl) hc
  | _ => exact decode_writeTxn rfl rfl

/-- A well-formed operation other than the bus error row has its target in the map. -/
theorem inMap_of_wf {i : Instr} (h : i.wf = true) (hne : ∀ t, i ≠ .busError t) : i.inMap = true := by
  cases i with
  | rdReg g => exact inRange_of_readableReg h
  | wrIgnored g d => exact (Bool.and_eq_true_iff.1 h).1
  | busError t => exact absurd rfl (hne t)
  | wrPay k d => exact h
  | rdRaw k => exact h
  | _ => rfl

theorem step_issueNext {i : Instr} (s : State) (h : i.wf = true) :
    step (s.issueNext (encode i)) = exec i { s with inReset := false } :=
  stepAt_txn rfl rfl (decode_encode h)

/-- Settles O10: the step runs the operation issued, which completes and touches neither the pending events nor the reset
input. -/
theorem issuedOperationsStepSafely : Obligations.IssuedOperationsStepSafely := by
  intro i s h hne
  have hstep := step_issueNext s h
  exact ⟨⟨_, hstep.trans (exec_of_inMap _ (inMap_of_wf h hne))⟩, fun t ht => exec_pending (hstep.symm.trans ht)⟩

/-! ## A read done twice (R64) -/

theorem readsWord_of_busRead {i : Instr} {g : Target} {s : State} {w : Word} (hi : exec i s = busRead s g)
    (hg : g.inRange = true) (hw : targetWord s g = w) : readsWord i s w :=
  ⟨_, hi.trans (hw ▸ busRead_of_inRange s hg)⟩

/-- Where operation `i` is a read of `g` that draws no free byte, reading again returns the same word. -/
theorem readsWord_again {i : Instr} {g : Target} {s : State} (hi : ∀ u, exec i u = busRead u g)
    (hg : g.inRange = true) (hd : drawsByte s g = false) :
    ∃ w t, exec i s = .next t ∧ t.resp = some (.readData w) ∧ readsWord i t w :=
  ⟨targetWord s g, _, (hi s).trans (busRead_of_inRange s hg), rfl,
    readsWord_of_busRead (hi _) hg (targetWord_readDone s _ _ g hd)⟩

/-- Settles O43: a read of RAW draws no free byte, and one of an RXBUF word below RXLEN or of any other target neither. -/
theorem readingTwiceReturnsTheSameWord : Obligations.ReadingTwiceReturnsTheSameWord := by
  rintro i s h (⟨k, rfl⟩ | ⟨g, rfl, hlt⟩)
  · exact readsWord_again (g := .raw k) (fun _ => rfl) h rfl
  · have hd : drawsByte s g = false := by
      cases g with
      | rxbuf k => exact decide_eq_false (Nat.not_le.2 (hlt k rfl))
      | _ => rfl
    exact readsWord_again (fun _ => rfl) (inRange_of_readableReg h) hd

end Sys2Proof.Machine
end

section
/-! Proofs: the decoder and the encoder are inverse to each other (R80 to R87), and the illegal command words (R84). -/

namespace Sys2Proof.Machine

/-! ## Command words (R81, R82) -/

/-- A legal command word is an assigned OPC, extended with zeros. -/
theorem exists_opcode_of_legal {w : Word} (h : legalCommand w = true) : ∃ b ∈ assignedOpcodes, w = zext b := by
  obtain ⟨hmbz, hopc⟩ := Bool.and_eq_true_iff.1 h
  refine ⟨cmdOpc w, List.contains_iff_mem.1 hopc, ?_⟩
  rw [zext_eq_ofNat, ← toNat_of_mbz (beq_iff_eq.1 hmbz), BitVec.ofNat_toNat, BitVec.setWidth_eq]

/-- The operation of any command word is well-formed and has that word: a legal one is one of the fourteen of R82, any
other is `WR CMD` of itself. -/
theorem encode_decodeCommand (w : Word) : (decodeCommand w).wf = true ∧ encode (decodeCommand w) = cmdTxn w := by
  cases hw : legalCommand w with
  | true =>
    have hall : ∀ b ∈ assignedOpcodes,
        (decodeCommand (zext b)).wf = true ∧ encode (decodeCommand (zext b)) = cmdTxn (zext b) := by decide
    obtain ⟨b, hb, rfl⟩ := exists_opcode_of_legal hw
    exact hall b hb
  | false =>
    rw [decodeCommand_of_illegal hw]
    exact ⟨by simp [Instr.wf, hw], rfl⟩

/-! ## Full accesses (R87) -/

theorem encode_decodeRead {g : Target} (hg : g.inRange = true) :
    (decodeRead g).wf = true ∧ encode (decodeRead g) = readTxn g := by
  cases g <;> exact ⟨hg, rfl⟩

theorem encode_decodeWrite {g : Target} (hg : g.inRange = true) (d : Word) :
    (decodeWrite d g).wf = true ∧ encode (decodeWrite d g) = writeTxn g d := by
  cases g with
  | reg r =>
    cases r with
    | cmd => exact encode_decodeCommand d
    | _ => exact ⟨rfl, rfl⟩
  | pay k => exact ⟨hg, rfl⟩
  | rxbuf k => exact ⟨Bool.and_eq_true_iff.2 ⟨hg, rfl⟩, rfl⟩
  | raw k => exact ⟨Bool.and_eq_true_iff.2 ⟨hg, rfl⟩, rfl⟩

/-! ## The statements -/

/-- Settles O1: `decode_encode`, constructor by constructor. -/
theorem decodeOfEncodeIsTheOperation : Obligations.DecodeOfEncodeIsTheOperation :=
  fun _ h => decode_encode h

/-- Settles O2: a decoded transaction is its own bus error row, or a full access whose target and kind give it back. -/
theorem encodeOfDecodeIsTheTransaction : Obligations.EncodeOfDecodeIsTheTransaction := by
  rintro ⟨k, a, off⟩ i h
  rcases decode_cases ⟨k, a, off⟩ with ⟨-, hd⟩ | ⟨hl, hb, hd⟩ | ⟨-, hf, g, hg, ho, -, hd⟩ <;> rw [hd] at h
  · cases h
  · cases h
    exact ⟨Bool.and_eq_true_iff.2 ⟨decide_eq_true hl, hb⟩, rfl⟩
  · cases hf
    cases ho
    cases k with
    | read => cases h; exact encode_decodeRead hg
    | write d => cases h; exact encode_decodeWrite hg d

/-- Settles O6: no assigned OPC lies in a gap of R84, so that each word there is illegal and decodes to `WR CMD`. -/
theorem illegalCommandWordSetsOnlyCmdErr : Obligations.IllegalCommandWordSetsOnlyCmdErr := by
  intro w s hgap
  have hw : legalCommand w = false := by
    by_contra hlegal
    obtain ⟨b, hb, rfl⟩ := exists_opcode_of_legal (Bool.eq_true_of_not_eq_false hlegal)
    revert b
    decide
  exact ⟨(decode_fullWrite (g := .reg .cmd) rfl w).trans (congrArg _ (decodeCommand_of_illegal hw)), _, rfl⟩

end Sys2Proof.Machine
end

section
/-! Proofs: the host script run through the machine (R88 to R90), and what each pseudo-operation does (R89). -/

namespace Sys2Proof.Machine

/-! ## A run of operations -/

/-- No operation looks at what the host will issue next. -/
theorem effect_withPending (i : Instr) (s : State) (p : List HostEvent) :
    i.effect { s with pending := p } = { i.effect s with pending := p } := by
  cases i with
  | parse =>
    have hd : ({ s with pending := p } : State).parseDecision = s.parseDecision := rfl
    have hw : rxWire { s with pending := p } = rxWire s := rfl
    simp only [Instr.effect, hd, hw]
    cases s.parseDecision <;> rfl
  | wrRxData d =>
    simp only [Instr.effect, State.appendByte]
    split <;> rfl
  | rdReg g => cases g with
    | reg r => cases r <;> rfl
    | _ => rfl
  | _ => rfl

/-- The state that operations performed in order leave, each completing. -/
def effectAll (is : List Instr) (s : State) : State := is.foldl (fun u i => i.effect u) s

theorem core_run_succ {M : Host.Core} {k : Nat} {s t : M.State} (h : M.step s = .next t) :
    M.run (k + 1) s = M.run k t := by
  rw [Host.Core.run, h]

/-- Out of reset, the step of a well-formed operation's transaction leaves the operation's effect. -/
theorem step_encode {i : Instr} {s : State} (hwf : i.wf = true) (hm : i.inMap = true) (hr : s.inReset = false)
    (rest : List HostEvent) :
    step { s with pending := .txn (encode i) :: rest } = .next { i.effect s with pending := rest } := by
  rw [← effect_withPending, ← exec_of_inMap _ hm]
  exact stepAt_txn rfl hr (decode_encode hwf)

/-- Out of reset, the transactions of well-formed operations run to their end with the effects of those operations, and
what the host issues after them stays pending. -/
theorem core_run_encode {is : List Instr} (his : is.all (fun i => i.wf && i.inMap) = true) {s : State}
    (hr : s.inReset = false) (rest : List HostEvent) :
    core.run is.length { s with pending := (is.map encode).map .txn ++ rest } =
      .next { effectAll is s with pending := rest } := by
  induction is generalizing s with
  | nil => rfl
  | cons i is ih =>
    simp only [List.all_cons, Bool.and_eq_true] at his
    obtain ⟨⟨hwf, hm⟩, his⟩ := his
    refine (core_run_succ (M := core) (step_encode hwf hm hr _)).trans ?_
    exact ih his ((exec_pending (exec_of_inMap s hm)).2.trans hr)

/-- A line whose transactions are those of well-formed operations performs their effects. -/
theorem performs_of_expand {l : Line} {is : List Instr} (hl : expand l = is.map encode)
    (his : is.all (fun i => i.wf && i.inMap) = true) {s : State} (hr : s.inReset = false) (rest : List HostEvent) :
    performs s [l] rest { effectAll is s with pending := rest } := by
  have hp : program [l] = (is.map encode).map .txn := by simp [program, hl]
  refine ⟨?_, rfl⟩
  rw [hp, List.length_map, List.length_map]
  exact core_run_encode his hr rest

/-! ## The operands a script composes (R83, R89) -/

theorem byteOf_toNat (w : Word) (k : Nat) : (byteOf w k).toNat = w.toNat / 2 ^ (8 * k) % 256 := by
  simp [byteOf, Nat.shiftRight_eq_div_pow]

theorem byteOf_zext (b : Byte) : byteOf (zext b) 0 = b := byteOf_setWidth_zero b

theorem expectOf_expectlen (n : Byte) : expectOf (0#23 ++ 1#1 ++ n) = { len := n, en := true } := by
  have hw : (0#23 ++ 1#1 ++ n : Word).toNat = 256 + n.toNat := by
    refine (toNat_append_eq _ _).trans ?_
    simp
  have hlen : byteOf (0#23 ++ 1#1 ++ n) 0 = n := by
    apply BitVec.eq_of_toNat_eq
    rw [byteOf_toNat, hw]
    omega
  have hen : (0#23 ++ 1#1 ++ n : Word).getLsbD 8 = true := by
    apply getLsbD_of_toNat
    rw [hw]
    simp
    omega
  rw [expectOf, hlen, hen]

/-- ARG as BUILDP loads it. -/
theorem byteOf_buildp (id len : Byte) : byteOf (0#16 ++ len ++ id) 0 = id ∧ byteOf (0#16 ++ len ++ id) 1 = len := by
  have hw : (0#16 ++ len ++ id : Word).toNat = 256 * len.toNat + id.toNat := by
    refine (toNat_append_eq _ _).trans ?_
    rw [toNat_append_eq]
    simp
    omega
  constructor <;> apply BitVec.eq_of_toNat_eq <;> rw [byteOf_toNat, hw] <;> omega

/-- ARG as LRC4 loads it. -/
theorem byteOf_lrc4 (b0 b1 b2 b3 : Byte) :
    byteOf (b3 ++ b2 ++ b1 ++ b0) 0 = b0 ∧ byteOf (b3 ++ b2 ++ b1 ++ b0) 1 = b1 ∧
      byteOf (b3 ++ b2 ++ b1 ++ b0) 2 = b2 ∧ byteOf (b3 ++ b2 ++ b1 ++ b0) 3 = b3 := by
  have hw : (b3 ++ b2 ++ b1 ++ b0 : Word).toNat =
      0x1000000 * b3.toNat + 0x10000 * b2.toNat + 0x100 * b1.toNat + b0.toNat := by
    refine (toNat_append_eq _ _).trans ?_
    repeat rw [toNat_append_eq]
    omega
  refine ⟨?_, ?_, ?_, ?_⟩ <;> apply BitVec.eq_of_toNat_eq <;> rw [byteOf_toNat, hw] <;> omega

/-! ## The pseudo-operations of fixed length -/

/-- Settles O50: each line runs as its operations, whose last one finds in ARG or in the staging registers what the first
ones stored. -/
theorem pseudoOperationsDoTheirWork : Obligations.PseudoOperationsDoTheirWork := by
  intro s rest hr
  refine ⟨fun a b => ?settov, fun n => ?expectlen, ?noexpect, fun a n => ?buildp, fun b => ?lrcb,
    fun b0 b1 b2 b3 => ?lrc4, fun b => ?crcb⟩
  case settov =>
    exact ⟨_, performs_of_expand (is := [.wrTovSecIn a, .wrTovUsIn b, .tovSet]) rfl rfl hr rest, rfl, rfl⟩
  case expectlen =>
    exact ⟨_, performs_of_expand (is := [.wrExpect (0#23 ++ 1#1 ++ n)]) rfl rfl hr rest, expectOf_expectlen n⟩
  case noexpect =>
    exact ⟨_, performs_of_expand (is := [.wrExpect 0]) rfl rfl hr rest, rfl⟩
  case buildp =>
    obtain ⟨hid, hlen⟩ := byteOf_buildp a n
    refine ⟨_, performs_of_expand (is := [.wrArg (0#16 ++ n ++ a), .build]) rfl rfl hr rest, ?_, rfl, rfl⟩
    show ({ lrc := 0, id := byteOf (0#16 ++ n ++ a) 0, len := byteOf (0#16 ++ n ++ a) 1 } : Hdr) = _
    rw [hid, hlen]
  case lrcb =>
    refine ⟨_, performs_of_expand (is := [.wrArg (zext b), .lrcUpdate]) rfl rfl hr rest, ?_⟩
    show (s.lrcSum + byteOf (zext b) 0).toNat = _
    rw [byteOf_zext, BitVec.toNat_add]
  case lrc4 =>
    obtain ⟨h0, h1, h2, h3⟩ := byteOf_lrc4 b0 b1 b2 b3
    refine ⟨_, performs_of_expand (is := [.wrArg (b3 ++ b2 ++ b1 ++ b0), .lrcUpdate4]) rfl rfl hr rest, ?_⟩
    show (s.lrcSum + byteSum [byteOf (b3 ++ b2 ++ b1 ++ b0) 0, byteOf (b3 ++ b2 ++ b1 ++ b0) 1,
      byteOf (b3 ++ b2 ++ b1 ++ b0) 2, byteOf (b3 ++ b2 ++ b1 ++ b0) 3]).toNat = _
    rw [h0, h1, h2, h3, BitVec.toNat_add, byteSum_toNat]
    simp
    omega
  case crcb =>
    refine ⟨_, performs_of_expand (is := [.wrArg (zext b), .crcUpdate]) rfl rfl hr rest, ?_⟩
    show crcStep s.crcAcc (byteOf (zext b) 0) = _
    rw [byteOf_zext]

/-! ## PUSH and WRPAY -/

/-- What a RAM holds after a run of writes, where an index never written reads as `v`. -/
theorem Memory.getD_lookup_writeAll (m : Memory) (i k : Nat) (bs : List Byte) (v : Byte) :
    ((m.writeAll i bs).lookup k).getD v =
      if i ≤ k ∧ k < i + bs.length then bs.getD (k - i) 0 else (m.lookup k).getD v := by
  rw [Memory.lookup_writeAll]
  split
  · rw [List.getD_eq_getElem?_getD, List.getElem?_eq_getElem (by omega)]
    rfl
  · rfl

/-- Appends that fit write the window from RXLEN up and advance RXLEN past them (R133). -/
theorem effectAll_appends {bs : List Byte} {s : State} (h : s.rxlen.toNat + bs.length ≤ Config.rxCap) :
    (effectAll (bs.map fun b => .wrRxData (zext b)) s).rxlen.toNat = s.rxlen.toNat + bs.length ∧
      (effectAll (bs.map fun b => .wrRxData (zext b)) s).rxbuf = s.rxbuf.writeAll s.rxlen.toNat bs := by
  induction bs generalizing s with
  | nil => exact ⟨rfl, rfl⟩
  | cons b bs ih =>
    rw [List.length_cons] at h ⊢
    have hlt : s.rxlen.toNat < Config.rxCap := by omega
    have hs : (Instr.wrRxData (zext b)).effect s =
        ({ s with rxbuf := s.rxbuf.write s.rxlen.toNat b, rxlen := s.rxlen + 1 } : State).writeDone := by
      rw [Instr.effect, byteOf_zext, State.appendByte, if_pos hlt]
    have hlen : ((Instr.wrRxData (zext b)).effect s).rxlen.toNat = s.rxlen.toNat + 1 := by
      rw [hs]
      exact rxlen_succ_toNat hlt
    obtain ⟨hn, hbuf⟩ := ih (s := (Instr.wrRxData (zext b)).effect s) (by omega)
    refine ⟨hn.trans (by omega), hbuf.trans ?_⟩
    rw [hlen, hs]
    rfl

/-- The operations of WRPAY: byte `k` of `bs` is stored at index `i + k`. -/
def payOps (i : Nat) (bs : List Byte) : List Instr := (bs.zipIdx i).map fun p => .wrPay p.2 (zext p.1)

theorem payOps_cons (i : Nat) (b : Byte) (bs : List Byte) :
    payOps i (b :: bs) = .wrPay i (zext b) :: payOps (i + 1) bs := rfl

theorem payWrites_eq (i : Nat) (bs : List Byte) : payWrites i bs = (payOps i bs).map encode := by
  induction bs generalizing i with
  | nil => rfl
  | cons b bs ih => rw [payOps_cons, List.map_cons, ← ih]; rfl

theorem payOps_wf {i : Nat} {bs : List Byte} (h : i + bs.length ≤ Config.payCap) :
    (payOps i bs).all (fun o => o.wf && o.inMap) = true := by
  refine List.all_eq_true.2 fun o ho => ?_
  obtain ⟨⟨b, k⟩, hp, rfl⟩ := List.mem_map.1 ho
  have hk : k < Config.payCap := (List.snd_lt_of_mem_zipIdx hp).trans_le (by omega)
  exact Bool.and_eq_true_iff.2 ⟨decide_eq_true hk, decide_eq_true hk⟩

theorem effectAll_payOps (i : Nat) (bs : List Byte) (s : State) :
    (effectAll (payOps i bs) s).pay = s.pay.writeAll i bs := by
  induction bs generalizing i s with
  | nil => rfl
  | cons b bs ih =>
    refine (ih (i + 1) ((Instr.wrPay i (zext b)).effect s)).trans ?_
    rw [Instr.effect, byteOf_zext]
    rfl

/-- Settles O51: both lines write a run of bytes to their RAM, PUSH from RXLEN and WRPAY from its index. -/
theorem pushAndWrpayFillTheirWindows : Obligations.PushAndWrpayFillTheirWindows := by
  intro s rest bs hr
  refine ⟨fun hfit => ?push, fun i hfit => ?wrpay⟩
  case push =>
    obtain ⟨hlen, hbuf⟩ := effectAll_appends hfit
    have hexp : expand (.push bs) = (bs.map fun b => Instr.wrRxData (zext b)).map encode :=
      (List.map_map (f := fun b => Instr.wrRxData (zext b)) (g := encode)).symm
    have hwf : (bs.map fun b => Instr.wrRxData (zext b)).all (fun o => o.wf && o.inMap) = true := by
      simp [Instr.wf, Instr.inMap]
    refine ⟨_, performs_of_expand hexp hwf hr rest, hlen, fun k => ?_⟩
    exact (congrArg (fun m => (Memory.lookup m k).getD _) hbuf).trans (Memory.getD_lookup_writeAll _ _ _ _ _)
  case wrpay =>
    refine ⟨_, performs_of_expand (l := .wrpay i bs) (payWrites_eq i bs) (payOps_wf hfit) hr rest, fun k => ?_⟩
    exact (congrArg (fun m => (Memory.lookup m k).getD _) (effectAll_payOps i bs s)).trans
      (Memory.getD_lookup_writeAll _ _ _ _ _)

end Sys2Proof.Machine
end

section
/-! Proofs: the checksum functions in numbers, the table step as bit-serial division, and the stand-alone engines (R100 to
R114). -/

namespace Sys2Proof.Machine

/-! ## The LRC (R100, R101) -/

theorem lrc_toNat (bs : List Byte) : (lrc bs).toNat = (256 - (bs.map BitVec.toNat).sum % 256) % 256 := by
  rw [lrc, lrcOfSum_toNat, byteSum_toNat]

theorem lrc_eq_zero_iff (bs : List Byte) : lrc bs = 0 ↔ (bs.map BitVec.toNat).sum % 256 = 0 := by
  rw [← BitVec.toNat_inj, lrc_toNat]
  show (256 - _ % 256) % 256 = 0 ↔ _
  omega

/-- Settles O12: the LRC is a function of the exact sum, which a permutation keeps. -/
theorem lrcNegatesTheByteSum : Obligations.LrcNegatesTheByteSum := by
  refine ⟨lrc_toNat, lrc_eq_zero_iff, fun bs cs h => BitVec.eq_of_toNat_eq ?_⟩
  rw [lrc_toNat, lrc_toNat, (h.map BitVec.toNat).sum_eq]

/-- Settles O13: the LRC makes up the exact sum to a multiple of 256, and a sequence with such a sum has LRC 0. -/
theorem lrcSumsToZeroWithItsBytes : Obligations.LrcSumsToZeroWithItsBytes := by
  intro bs
  have hsum : ((bs.map BitVec.toNat).sum + (lrc bs).toNat) % 256 = 0 := by
    rw [lrc_toNat]
    omega
  refine ⟨hsum, (lrc_eq_zero_iff _).2 ?_⟩
  simpa using hsum

/-! ## The CRC step as bit-serial division (R102, R103) -/

theorem crcBit_eq_xor (c : Half) : crcBit c = (c <<< 1) ^^^ (if c.msb then Config.crcPoly else 0) := by
  cases h : c.msb <;> simp [crcBit, h]

/-- The test of the shift step in numbers: the bit shifted out is the top one. -/
theorem crcBit_eq_ite_toNat (c : Half) : crcBit c = if c.toNat < 32768 then c <<< 1 else (c <<< 1) ^^^ 0x1021#16 := by
  by_cases h : c.toNat < 32768
  · simp [crcBit, BitVec.msb_eq_decide, h, Nat.not_le.2 h]
  · simp [crcBit, BitVec.msb_eq_decide, h, Nat.not_lt.1 h]

theorem crcBit_xor (c d : Half) : crcBit (c ^^^ d) = crcBit c ^^^ crcBit d := by
  have hpoly : (if (c ^^^ d).msb then Config.crcPoly else 0) =
      (if c.msb then Config.crcPoly else 0) ^^^ (if d.msb then Config.crcPoly else 0) := by
    rw [BitVec.msb_xor]
    cases c.msb <;> cases d.msb <;> simp
  rw [crcBit_eq_xor, crcBit_eq_xor c, crcBit_eq_xor d, hpoly, BitVec.shiftLeft_xor_distrib]
  ac_rfl

/-- The division is linear over XOR. -/
theorem crcBits_xor (n : Nat) (c d : Half) : crcBits n (c ^^^ d) = crcBits n c ^^^ crcBits n d := by
  induction n generalizing c d with
  | zero => rfl
  | succ n ih => simp only [crcBits, crcBit_xor, ih]

/-- While the bits shifted out are all zero, the division only shifts. -/
theorem crcBits_of_lt (n : Nat) (c : Half) (h : c.toNat * 2 ^ n < 65536) : crcBits n c = c <<< n := by
  induction n generalizing c with
  | zero => simp [crcBits]
  | succ n ih =>
    have htwice : c.toNat * 2 * 2 ^ n < 65536 := by rwa [Nat.mul_assoc, ← Nat.pow_succ']
    have hlt : c.toNat * 2 < 65536 := (Nat.le_mul_of_pos_right _ (Nat.two_pow_pos n)).trans_lt htwice
    have hbit : crcBit c = c <<< 1 := by rw [crcBit_eq_ite_toNat, if_pos (by omega)]
    have hdouble : (c <<< 1).toNat = c.toNat * 2 := by
      simpa [Nat.shiftLeft_eq] using hlt
    rw [crcBits, hbit, ih _ (hdouble ▸ htwice), ← BitVec.shiftLeft_add, Nat.add_comm]

/-- A register with a byte added at its high end, as the sum of its high byte so changed and its low byte. -/
theorem xor_highByte_split (c : Half) (b : Byte) :
    c ^^^ (b.setWidth 16 <<< 8) =
      (((c >>> 8).setWidth 8 ^^^ b).setWidth 16 <<< 8) ^^^ (c.setWidth 8).setWidth 16 := by
  ext i hi
  by_cases hlo : i < 8
  · simp [hlo, BitVec.getLsbD_eq_getElem hi]
  · have hidx : 8 + (i - 8) = i := by omega
    simp [hlo, show i - 8 < 8 by omega, hidx, BitVec.getLsbD_eq_getElem hi]

/-- The table step divides the register with the byte added at its high end: the high byte's part is the table's entry, and
the low byte's only shifts. -/
theorem crcStep_eq_crcBits (c : Half) (b : Byte) : crcStep c b = crcBits 8 (c ^^^ (b.setWidth 16 <<< 8)) := by
  have hlow : crcBits 8 ((c.setWidth 8).setWidth 16) = c <<< 8 := by
    rw [crcBits_of_lt]
    · apply BitVec.eq_of_toNat_eq
      simp [Nat.shiftLeft_eq]
      omega
    · simp
      omega
  rw [xor_highByte_split, crcBits_xor, hlow, BitVec.xor_comm]
  rfl

theorem foldl_crcBit {α : Type} (l : List α) (c : Half) :
    l.foldl (fun c _ => crcBit c) c = crcBits l.length c := by
  induction l generalizing c with
  | nil => rfl
  | cons a l ih => exact ih (crcBit c)

/-- Settles O14: the shift step of the statement is the one that generates the table, run eight times. -/
theorem crcTableStepIsBitSerialDivision : Obligations.CrcTableStepIsBitSerialDivision := by
  intro crc b
  simp only [← crcBit_eq_ite_toNat, foldl_crcBit, List.length_range, crcStep_eq_crcBits]

/-! ## The engines' operands in numbers (R83, R103) -/

theorem argByte_eq_ofNat (s : State) : argByte s = BitVec.ofNat 8 s.arg.toNat := by
  apply BitVec.eq_of_toNat_eq
  rw [argByte, byteOf_zero_toNat, BitVec.toNat_ofNat]

theorem argBytes_sum (s : State) :
    ((argBytes s).map BitVec.toNat).sum =
      s.arg.toNat % 256 + s.arg.toNat / 0x100 % 256 + s.arg.toNat / 0x10000 % 256 + s.arg.toNat / 0x1000000 := by
  have := Word.toNat_lt s.arg
  simp [argBytes, byteOf_toNat]
  omega

theorem crcStep_eq_ofNat (c : Half) (b : Byte) :
    crcStep c b = BitVec.ofNat 16 (c.toNat * 256 % 65536) ^^^ crcTable (BitVec.ofNat 8 (c.toNat / 256) ^^^ b) := by
  have hhi : (c >>> 8).setWidth 8 = BitVec.ofNat 8 (c.toNat / 256) := by
    apply BitVec.eq_of_toNat_eq
    simp [Nat.shiftRight_eq_div_pow]
  have hlo : c <<< 8 = BitVec.ofNat 16 (c.toNat * 256 % 65536) := by
    apply BitVec.eq_of_toNat_eq
    simp [Nat.shiftLeft_eq]
  rw [crcStep, hhi, hlo]

/-! ## The engine commands (R109 to R114) -/

/-- Settles O15: the sums mod 256 are those of the operand's bytes in numbers. -/
theorem lrcEngineCommandsWriteOnlyLrcSum : Obligations.LrcEngineCommandsWriteOnlyLrcSum := by
  refine ⟨rfl, rfl, rfl, fun s => ?_⟩
  have hone : s.lrcSum + argByte s = BitVec.ofNat 8 ((s.lrcSum.toNat + s.arg.toNat % 256) % 256) := by
    apply BitVec.eq_of_toNat_eq
    simp [argByte_eq_ofNat]
  have hfour : s.lrcSum + byteSum (argBytes s) =
      BitVec.ofNat 8 ((s.lrcSum.toNat + s.arg.toNat % 256 + s.arg.toNat / 0x100 % 256
        + s.arg.toNat / 0x10000 % 256 + s.arg.toNat / 0x1000000) % 256) := by
    apply BitVec.eq_of_toNat_eq
    rw [BitVec.toNat_add, byteSum_toNat, argBytes_sum]
    simp
    omega
  rw [← hone, ← hfour]
  exact ⟨_, rfl, rfl, rfl⟩

/-- Settles O16: CRCSTEP over ARG[7:0], in numbers. -/
theorem crcEngineCommandsWriteOnlyCrcAcc : Obligations.CrcEngineCommandsWriteOnlyCrcAcc := by
  refine ⟨rfl, rfl, fun s => ?_⟩
  rw [← crcStep_eq_ofNat, ← argByte_eq_ofNat]
  exact ⟨_, rfl, rfl⟩

/-! ## The CRC engine over a byte sequence (R112) -/

/-- Loading ARG and updating advances whatever CRC_ACC holds over each byte. -/
theorem execAll_crcUpdates (bs : List Byte) (s : State) :
    ∃ t, execAll (bs.flatMap (fun b => [.wrArg (b.setWidth 32), .crcUpdate])) s = .next t ∧
      t.crcAcc = bs.foldl crcStep s.crcAcc := by
  induction bs generalizing s with
  | nil => exact ⟨s, rfl, rfl⟩
  | cons b bs ih =>
    obtain ⟨t, hrun, hacc⟩ := ih ((Instr.crcUpdate).effect ((Instr.wrArg (b.setWidth 32)).effect s))
    have hstep : ((Instr.crcUpdate).effect ((Instr.wrArg (b.setWidth 32)).effect s)).crcAcc = crcStep s.crcAcc b :=
      congrArg (crcStep s.crcAcc) (byteOf_setWidth_zero b)
    exact ⟨t, hrun, by rw [hacc, hstep, List.foldl_cons]⟩

/-- Settles O18: CRC_INIT loads the seed of CRC16, and UPDATE_HEADER writes CRC16 of the payload in PAY. -/
theorem crcEngineAccumulatesItsBytes : Obligations.CrcEngineAccumulatesItsBytes := by
  intro bs s
  obtain ⟨t, hrun, hacc⟩ := execAll_crcUpdates bs ((Instr.crcInit).effect s)
  have hcrc : t.crcAcc = crc16 bs := hacc
  refine ⟨t, hrun, hcrc, readsWord_reg (congrArg zext hcrc), fun hbs => ?_⟩
  refine ⟨(Instr.updateHeader).effect s, rfl, ?_⟩
  rw [hcrc, hbs]
  rfl

/-! ## The envelope and the engines (R107) -/

/-- The state with the engine registers at other values. -/
def State.withEngines (s : State) (x : Byte) (y : Half) : State := { s with lrcSum := x, crcAcc := y }

theorem appendByte_withEngines (s : State) (x : Byte) (y : Half) (b : Byte) :
    (s.withEngines x y).appendByte b = (s.appendByte b).withEngines x y := by
  rw [State.appendByte, State.appendByte, apply_ite (State.withEngines · x y)]
  rfl

/-- An operation that is no engine command, no reset and no register read has the same effect whatever the engine
registers hold, and leaves them. -/
theorem effect_withEngines {i : Instr} (s : State) (x : Byte) (y : Half)
    (hi : i ∉ [Instr.lrcInit, .lrcUpdate, .lrcUpdate4, .crcInit, .crcUpdate, .softReset]) (hrd : ∀ g, i ≠ .rdReg g) :
    i.effect (s.withEngines x y) = (i.effect s).withEngines x y := by
  cases i with
  | lrcInit | lrcUpdate | lrcUpdate4 | crcInit | crcUpdate | softReset => simp at hi
  | rdReg g => exact absurd rfl (hrd g)
  | parse =>
    have hd : (s.withEngines x y).parseDecision = s.parseDecision := rfl
    have hw : rxWire (s.withEngines x y) = rxWire s := rfl
    simp only [Instr.effect, hd, hw]
    cases s.parseDecision <;> rfl
  | wrRxData d => exact congrArg State.writeDone (appendByte_withEngines s x y (byteOf d 0))
  | _ => rfl

/-- Settles O48: whether an operation completes does not depend on the state, and its effect commutes with the change of
the engine registers. -/
theorem envelopeAndEnginesShareNoState : Obligations.EnvelopeAndEnginesShareNoState := by
  intro i s t x y hi hrd h
  obtain ⟨hm, rfl⟩ := exec_next_iff.1 h
  exact (exec_of_inMap _ hm).trans (congrArg _ (effect_withEngines s x y hi hrd))

end Sys2Proof.Machine
end

section
/-! Proofs: the receive window and the payload buffer (R133 to R136), and PARSE (R138 to R144). -/

namespace Sys2Proof.Machine

/-! ## The envelope's operands in numbers (R70, R83, R100) -/

theorem byteOf_eq_ofNat (w : Word) (k : Nat) : byteOf w k = BitVec.ofNat 8 (w.toNat / 2 ^ (8 * k)) :=
  BitVec.eq_of_toNat_eq (byteOf_toNat w k)

theorem byteOf_zero_eq_ofNat (d : Word) : byteOf d 0 = BitVec.ofNat 8 d.toNat :=
  BitVec.eq_of_toNat_eq (byteOf_zero_toNat d)

theorem lrc_eq_ofNat (bs : List Byte) : lrc bs = BitVec.ofNat 8 (256 - (bs.map BitVec.toNat).sum % 256) :=
  BitVec.eq_of_toNat_eq (lrc_toNat bs)

theorem wireLrc_eq_ofNat (w : Wire) :
    wireLrc w = BitVec.ofNat 8 (256 - (w.b1.toNat + w.b2.toNat + w.b3.toNat + w.b4.toNat) % 256) := by
  rw [wireLrc, lrc_eq_ofNat]
  simp [Nat.add_assoc]

theorem hcrcOfWire_eq_ofNat (w : Wire) : hcrcOfWire w = BitVec.ofNat 16 (w.b3.toNat + 256 * w.b4.toNat) := by
  apply BitVec.eq_of_toNat_eq
  have h3 := w.b3.isLt
  have h4 := w.b4.isLt
  rw [hcrcOfWire, toNat_append_eq, BitVec.toNat_ofNat]
  omega

/-! ## The receive window and the payload buffer -/

/-- Settles O19: the two outcomes of an append. -/
theorem rxDataAppendsOrSetsOvf : Obligations.RxDataAppendsOrSetsOvf := by
  intro d s
  refine ⟨decode_fullWrite (g := .reg .rxData) rfl d, fun hlt => ⟨_, rfl, ?_, fun j => ?_⟩,
    fun hfull => ⟨some .writeDone, ?_⟩⟩
  · have hsucc : s.rxlen + 1 = BitVec.ofNat 9 (s.rxlen.toNat + 1) := by
      rw [BitVec.ofNat_add, BitVec.ofNat_toNat, BitVec.setWidth_eq]
      rfl
    rw [State.appendByte, if_pos hlt, hsucc]
    rfl
  · rw [← byteOf_zero_eq_ofNat]
    exact rxByte_appendByte s (byteOf d 0) hlt j
  · exact congrArg (fun u => Host.Outcome.next (State.writeDone u)) (if_neg (Nat.not_lt.2 hfull))

/-- Settles O20: an index up to 254 is in the window, and the byte stored is the word's low byte. -/
theorem payWriteStoresAByteAndDropsTheCrcResult : Obligations.PayWriteStoresAByteAndDropsTheCrcResult := by
  intro i d s hi
  have hlt : i < Config.payCap := Nat.lt_succ_of_le hi
  refine ⟨decode_fullWrite (g := .pay i) (decide_eq_true hlt) d, _, execWrPay_of_lt d s hlt, rfl, fun j => ?_⟩
  rw [← byteOf_zero_eq_ofNat]
  exact payByte_storePay s i j (byteOf d 0)

/-- Settles O21: over an empty window the short header test applies, whatever the RAM holds. -/
theorem rxClearEmptiesTheWindow : Obligations.RxClearEmptiesTheWindow :=
  ⟨rfl, fun _ => ⟨⟨_, rfl⟩, _, rfl, rfl, rfl⟩⟩

/-- Settles O22: an exact sum of numbers is 0 only where each is. -/
theorem allZeroTestHoldsOnlyForFiveZeroBytes : Obligations.AllZeroTestHoldsOnlyForFiveZeroBytes := allZero_iff

/-! ## The tests of PARSE (R131, R137, R138) -/

/-- A valid header in terms of its bytes (R131). -/
theorem validHeader_iff (w : Wire) :
    validHeader w = true ↔ w.b0 = wireLrc w ∧ ¬(w.b0 = 0 ∧ w.b1 = 0 ∧ w.b2 = 0 ∧ w.b3 = 0 ∧ w.b4 = 0) := by
  rw [validHeader, Bool.and_eq_true, Bool.not_eq_true', ← Bool.not_eq_true, allZero_iff, lrcOk, beq_iff_eq, eq_comm]

/-- The decision, test by test, over the bytes of the window. -/
theorem parseDecision_eq_ite (s : State) :
    s.parseDecision =
      if s.rxlen.toNat < 5 then .shortHeader (5 - s.rxlen.toNat)
      else if rxByte s 0 = 0 ∧ rxByte s 1 = 0 ∧ rxByte s 2 = 0 ∧ rxByte s 3 = 0 ∧ rxByte s 4 = 0 then .allZero
      else if rxByte s 0 ≠ wireLrc (rxWire s) then .lrcMismatch
      else if s.rxlen.toNat < 5 + (rxByte s 2).toNat then .shortPayload (5 + (rxByte s 2).toNat - s.rxlen.toNat)
      else if s.expect.en = true ∧ rxByte s 2 ≠ s.expect.len then .lenMismatch else .ok := by
  have hzero : allZero (rxWire s) = true ↔
      rxByte s 0 = 0 ∧ rxByte s 1 = 0 ∧ rxByte s 2 = 0 ∧ rxByte s 3 = 0 ∧ rxByte s 4 = 0 := allZero_iff (rxWire s)
  have hlrc : (!lrcOk (rxWire s)) = true ↔ rxByte s 0 ≠ wireLrc (rxWire s) := by
    rw [lrcOk, Bool.not_eq_true', beq_eq_false_iff_ne, ne_comm]
    rfl
  have hlen : (s.expect.en && (rxWire s).b2 != s.expect.len) = true ↔
      s.expect.en = true ∧ rxByte s 2 ≠ s.expect.len := by
    rw [Bool.and_eq_true, bne_iff_ne]
    rfl
  simp only [State.parseDecision_eq, parseOutcome, hzero, hlrc, hlen]
  rfl

/-- Once the header is there and valid, its own length and then EXPECT decide. -/
theorem parseDecision_of_validHeader {s : State} (hn : 5 ≤ s.rxlen.toNat) (hv : validHeader (rxWire s) = true) :
    s.parseDecision =
      if s.rxlen.toNat < 5 + (rxByte s 2).toNat then .shortPayload (5 + (rxByte s 2).toNat - s.rxlen.toNat)
      else if s.expect.en = true ∧ rxByte s 2 ≠ s.expect.len then .lenMismatch else .ok := by
  obtain ⟨hlrc, hz⟩ := (validHeader_iff (rxWire s)).1 hv
  have hl : ¬rxByte s 0 ≠ wireLrc (rxWire s) := not_not.2 hlrc
  have hzero : ¬(rxByte s 0 = 0 ∧ rxByte s 1 = 0 ∧ rxByte s 2 = 0 ∧ rxByte s 3 = 0 ∧ rxByte s 4 = 0) := hz
  rw [parseDecision_eq_ite, if_neg (Nat.not_lt.2 hn), if_neg hzero, if_neg hl]

theorem parseDecision_shortPayload {s : State} (hn : 5 ≤ s.rxlen.toNat) (hv : validHeader (rxWire s) = true)
    (hp : s.rxlen.toNat < 5 + (rxByte s 2).toNat) :
    s.parseDecision = .shortPayload (5 + (rxByte s 2).toNat - s.rxlen.toNat) := by
  rw [parseDecision_of_validHeader hn hv, if_pos hp]

theorem parseDecision_lenMismatch {s : State} (hv : validHeader (rxWire s) = true)
    (hp : 5 + (rxByte s 2).toNat ≤ s.rxlen.toNat) (he : s.expect.en = true) (hne : rxByte s 2 ≠ s.expect.len) :
    s.parseDecision = .lenMismatch := by
  rw [parseDecision_of_validHeader (by omega) hv, if_neg (Nat.not_lt.2 hp), if_pos ⟨he, hne⟩]

theorem parseDecision_ok {s : State} (hv : validHeader (rxWire s) = true)
    (hp : 5 + (rxByte s 2).toNat ≤ s.rxlen.toNat) (he : s.expect.en = false ∨ s.expect.len = rxByte s 2) :
    s.parseDecision = .ok := by
  rw [parseDecision_of_validHeader (by omega) hv, if_neg (Nat.not_lt.2 hp), if_neg]
  rintro ⟨hen, hne⟩
  exact he.elim (by simp [hen]) (hne ∘ Eq.symm)

/-- PARSE completes with the effect of the outcome decided. -/
theorem exec_parse_of_decision {s : State} {o : ParseOutcome} (h : s.parseDecision = o) :
    exec .parse s = .next (s.parseEffect (rxWire s) o).writeDone :=
  h ▸ execParse_eq s

/-- A window that is too short, for the header or for its payload: NEED is what is missing (R190). -/
theorem exec_parse_needMoreData {s : State} {need : Nat} (hlt : need < 512)
    (h : s.parseDecision = .shortHeader need ∨ s.parseDecision = .shortPayload need) :
    ∃ t, exec .parse s = .next t ∧ t.status.result = .needMoreData ∧ t.need.toNat = need := by
  have hneed : (BitVec.ofNat 9 need).toNat = need := by rw [BitVec.toNat_ofNat, Nat.mod_eq_of_lt hlt]
  rcases h with h | h <;> exact ⟨_, exec_parse_of_decision h, rfl, hneed⟩

/-! ## The statements about PARSE -/

/-- Settles O23: each outcome of the decision, with its effect in the numbers of the window's bytes. -/
theorem parseDecidesByTheFirstTestThatApplies : Obligations.ParseDecidesByTheFirstTestThatApplies := by
  refine ⟨rfl, fun s => ⟨_, execParse_eq s, ?_⟩⟩
  intro n b len c hdr hcrc st
  have hc : wireLrc (rxWire s) = c := wireLrc_eq_ofNat (rxWire s)
  have hh : hcrcOfWire (rxWire s) = hcrc := hcrcOfWire_eq_ofNat (rxWire s)
  rw [parseDecision_eq_ite, ← hc, ← hh]
  split_ifs with hn hz hl hp he
  · rfl
  · rfl
  · rfl
  · rfl
  · exact ⟨payByte_copyPayload s len, rfl⟩
  · exact ⟨payByte_copyPayload s len, rfl⟩

/-- The header bytes of a packet make the header in the window valid (R131). -/
theorem validHeader_rxWire {s : State} {p : List Byte} (hp : ∀ k < 5, rxByte s k = p.getD k 0)
    (hlrc : p.getD 0 0 = lrc [p.getD 1 0, p.getD 2 0, p.getD 3 0, p.getD 4 0]) (hne : ∃ k, k < 5 ∧ p.getD k 0 ≠ 0) :
    validHeader (rxWire s) = true := by
  simp only [← hp 0 (by decide), ← hp 1 (by decide), ← hp 2 (by decide), ← hp 3 (by decide),
    ← hp 4 (by decide)] at hlrc
  obtain ⟨k, hk, hb⟩ := hne
  rw [← hp k hk] at hb
  refine (validHeader_iff _).2 ⟨hlrc, ?_⟩
  rintro ⟨h0, h1, h2, h3, h4⟩
  interval_cases k <;> contradiction

/-- Settles O26: below five bytes the header is short; from five on it is valid, and its own length decides. -/
theorem partialInputAsksForWhatIsMissing : Obligations.PartialInputAsksForWhatIsMissing := by
  intro s p hp5 hplen hlrc hnz hwin hen
  by_cases hn : s.rxlen.toNat < 5
  · simp only [if_pos hn]
    exact exec_parse_needMoreData (by omega) (.inl ((parseDecision_eq_ite s).trans (if_pos hn)))
  · have hbytes : ∀ k < 5, rxByte s k = p.getD k 0 := fun k hk => hwin k (by omega) (by omega)
    have hv := validHeader_rxWire hbytes hlrc hnz
    have hlt := (rxByte s 2).isLt
    rw [← hbytes 2 (by decide)] at hplen
    simp only [if_neg hn, hplen]
    by_cases hp : s.rxlen.toNat < 5 + (rxByte s 2).toNat
    · simp only [if_pos hp]
      exact exec_parse_needMoreData (by omega) (.inr (parseDecision_shortPayload (by omega) hv hp))
    · simp only [if_neg hp]
      exact ⟨_, exec_parse_of_decision (parseDecision_ok hv (by omega) (.inl hen)), rfl⟩

/-- Settles O27: the header's own length comes before EXPECT, which alone tells the two states apart. -/
theorem variantLengthMismatchFailsOnceComplete : Obligations.VariantLengthMismatchFailsOnceComplete := by
  intro s hn hv hen hne
  by_cases hp : s.rxlen.toNat < 5 + (rxByte s 2).toNat
  · have hlt := (rxByte s 2).isLt
    obtain ⟨t, ht, hshort⟩ := exec_parse_needMoreData (by omega) (.inr (parseDecision_shortPayload hn hv hp))
    exact ⟨t, _, ht, execParse_eq _, by rwa [if_pos hp]⟩
  · have hp' := Nat.le_of_not_lt hp
    have hok := parseDecision_ok (s := { s with expect := { s.expect with en := false } }) hv hp' (.inl rfl)
    refine ⟨_, _, exec_parse_of_decision (parseDecision_lenMismatch hv hp' hen hne), exec_parse_of_decision hok, ?_⟩
    rw [if_neg hp]
    exact ⟨rfl, rfl, rfl⟩

end Sys2Proof.Machine
end

section
/-! Proofs: the payload check and the outbound header (R145 to R150), and the RAW view (R151 to R153). -/

namespace Sys2Proof.Machine

/-! ## Operations in order -/

/-- Operations that are in the map complete one after the other. -/
theorem execAll_of_inMap {is : List Instr} (s : State) (h : is.all Instr.inMap = true) :
    execAll is s = .next (effectAll is s) := by
  induction is generalizing s with
  | nil => rfl
  | cons i is ih =>
    obtain ⟨hi, his⟩ := Bool.and_eq_true_iff.1 h
    rw [execAll, exec_of_inMap s hi]
    exact ih _ his

theorem effectAll_append (is js : List Instr) (s : State) :
    effectAll (is ++ js) s = effectAll js (effectAll is s) := List.foldl_append

/-! ## The two bytes of a CRC (R70) -/

theorem crcLo_toNat (c : Half) : (crcLo c).toNat = c.toNat % 256 := by simp [crcLo]

theorem crcHi_toNat (c : Half) : (crcHi c).toNat = c.toNat / 256 := by
  have := c.isLt
  simp [crcHi, Nat.shiftRight_eq_div_pow]
  omega

theorem crcLo_eq_ofNat (c : Half) : crcLo c = BitVec.ofNat 8 c.toNat :=
  BitVec.eq_of_toNat_eq ((crcLo_toNat c).trans (BitVec.toNat_ofNat c.toNat 8).symm)

theorem crcHi_eq_ofNat (c : Half) : crcHi c = BitVec.ofNat 8 (c.toNat / 256) := by
  rw [← crcHi_toNat, BitVec.ofNat_toNat, BitVec.setWidth_eq]

theorem hcrcOfWire_wireOf (h : Hdr) (c : Half) : hcrcOfWire (wireOf h c) = c := by
  rw [hcrcOfWire_eq_ofNat]
  simp only [wireOf, crcLo_toNat, crcHi_toNat, Nat.mod_add_div, BitVec.ofNat_toNat, BitVec.setWidth_eq]

/-! ## The CRC tells two byte sequences apart that differ in one byte (R146) -/

/-- The polynomial's low bit is set, so the shift step loses nothing. -/
theorem eq_zero_of_crcBit_eq_zero {c : Half} (h : crcBit c = 0) : c = 0 := by
  by_cases hc : c.toNat < 32768
  · rw [crcBit_eq_ite_toNat, if_pos hc] at h
    have hn := congrArg BitVec.toNat h
    simp [Nat.shiftLeft_eq] at hn
    apply BitVec.eq_of_toNat_eq
    simp
    omega
  · rw [crcBit_eq_ite_toNat, if_neg hc] at h
    have hb := congrArg (BitVec.getLsbD · 0) h
    simp at hb

theorem crcBit_injective : Function.Injective crcBit := by
  intro c d h
  apply BitVec.xor_eq_zero_iff.1
  apply eq_zero_of_crcBit_eq_zero
  rw [crcBit_xor, h, BitVec.xor_self]
  rfl

theorem crcBits_injective (n : Nat) : Function.Injective (crcBits n) := by
  induction n with
  | zero => exact fun _ _ h => h
  | succ n ih => exact fun _ _ h => crcBit_injective (ih h)

theorem crcStep_left_injective (b : Byte) : Function.Injective (crcStep · b) := by
  intro c d h
  simp only [crcStep_eq_crcBits] at h
  exact (BitVec.xor_left_inj _).1 (crcBits_injective 8 h)

theorem crcStep_right_injective (c : Half) : Function.Injective (crcStep c) := by
  intro a b h
  simp only [crcStep_eq_crcBits] at h
  have hshift := (BitVec.xor_right_inj _).1 (crcBits_injective 8 h)
  have hn := congrArg BitVec.toNat hshift
  simp [Nat.shiftLeft_eq] at hn
  apply BitVec.eq_of_toNat_eq
  omega

theorem foldl_crcStep_injective (bs : List Byte) : Function.Injective (bs.foldl crcStep) := by
  induction bs with
  | nil => exact fun _ _ h => h
  | cons b bs ih => exact fun _ _ h => crcStep_left_injective b (ih h)

theorem foldl_crcStep_set_ne {bs : List Byte} {i : Nat} {b : Byte} (c : Half) (hi : i < bs.length) (hb : b ≠ bs[i]) :
    (bs.set i b).foldl crcStep c ≠ bs.foldl crcStep c := by
  induction bs generalizing i c with
  | nil => cases hi
  | cons a bs ih =>
    cases i with
    | zero => exact fun h => hb (crcStep_right_injective c (foldl_crcStep_injective bs h))
    | succ i => exact ih (crcStep c a) (Nat.lt_of_succ_lt_succ hi) hb

/-- A change of any one byte changes the CRC. -/
theorem crc16_set_ne {bs : List Byte} {i : Nat} {b : Byte} (hi : i < bs.length) (hb : b ≠ bs[i]) :
    crc16 (bs.set i b) ≠ crc16 bs := foldl_crcStep_set_ne _ hi hb

theorem payBytes_storePay (s : State) (n i : Nat) (b : Byte) :
    payBytes (s.storePay i b) n = (payBytes s n).set i b := by
  apply List.ext_getElem
  · simp
  · intro k _ _
    simp [payBytes, payByte_storePay, List.getElem_set, eq_comm]

/-! ## The payload check (R145, R146) -/

/-- Settles O28: CRC_CHECK writes the comparison down, whatever the state. -/
theorem crcCheckRecordsTheComparison : Obligations.CrcCheckRecordsTheComparison :=
  ⟨rfl, fun _ => ⟨_, rfl⟩⟩

/-- Settles O29: the payload checked differs from the one HCRC is right for in one byte, and so does its CRC. -/
theorem anySingleByteCorruptionIsCaught : Obligations.AnySingleByteCorruptionIsCaught := by
  intro s i d hcrc hi hne
  have hlt : i < Config.payCap := by
    have := s.hdr.len.isLt
    simp only [Config.payCap]
    omega
  rw [← byteOf_zero_eq_ofNat] at hne
  have hmap : [Instr.wrPay i d, .crcCheck].all Instr.inMap = true := by simpa [Instr.inMap] using hlt
  refine ⟨_, execAll_of_inMap s hmap, rfl, ?_, rfl, rfl, rfl⟩
  show (crc16 (payBytes (s.storePay i (byteOf d 0)) s.hdr.len.toNat) == s.hcrc) = false
  rw [payBytes_storePay, beq_eq_false_iff_ne, ← hcrc]
  exact crc16_set_ne (by simpa using hi) (by simpa [payBytes] using hne)

/-! ## The outbound header (R148 to R150) -/

/-- Settles O30: the LRC written is that of the wire bytes of the record with the new CRC. -/
theorem updateHeaderComputesCrcThenLrc : Obligations.UpdateHeaderComputesCrcThenLrc := by
  refine ⟨rfl, fun s => ⟨some .writeDone, ?_⟩⟩
  have hlrc := wireLrc_eq_ofNat (wireOf s.hdr (crc16 (payload s)))
  simp only [wireOf, crcLo_toNat, crcHi_toNat] at hlrc
  exact congrArg (fun b => Host.Outcome.next { (Instr.updateHeader).effect s with hdr := { s.hdr with lrc := b } }) hlrc

/-- Settles O31: the completed header is valid, and its CRC is that of the payload, which UPDATE_HEADER leaves. -/
theorem updatedHeaderIsValidAndChecksGood : Obligations.UpdatedHeaderIsValidAndChecksGood := by
  intro s
  obtain ⟨hlrc, hz⟩ := (validHeader_iff _).1 (validHeader_completeHeader s)
  refine ⟨_, _, rfl, ⟨?_, ?_⟩, rfl, beq_iff_eq.2 rfl⟩
  · rw [← crcLo_eq_ofNat, ← crcHi_eq_ofNat]
    exact hlrc
  · rintro ⟨h0, h1, h2, hc⟩
    refine hz ⟨h0, h1, h2, ?_, ?_⟩
    · exact congrArg crcLo hc
    · exact congrArg crcHi hc

/-- Settles O32: packetId and packetDataLen are the low bytes of ARG. -/
theorem buildStartsAnOutboundPacket : Obligations.BuildStartsAnOutboundPacket := by
  refine ⟨rfl, fun s => ⟨some .writeDone, ?_⟩⟩
  have hlen : argLen s = BitVec.ofNat 8 (s.arg.toNat / 256) := byteOf_eq_ofNat s.arg 1
  rw [← argByte_eq_ofNat, ← hlen]
  rfl

/-! ## The RAW view (R151, R152) -/

/-- The view in numbers. -/
theorem rawByte_toNat (s : State) (i : Nat) :
    (rawByte s i).toNat =
      if i = 0 then s.hdr.lrc.toNat
      else if i = 1 then s.hdr.id.toNat
      else if i = 2 then s.hdr.len.toNat
      else if i = 3 then s.hcrc.toNat % 256
      else if i = 4 then s.hcrc.toNat / 256
      else if i < 5 + s.hdr.len.toNat then (payByte s (i - 5)).toNat
      else 0 := by
  match i with
  | 0 => rfl
  | 1 => rfl
  | 2 => rfl
  | 3 => exact crcLo_toNat s.hcrc
  | 4 => exact crcHi_toNat s.hcrc
  | k + 5 => simp [rawByte, Nat.add_comm 5, apply_ite BitVec.toNat]

/-- Settles O33: a read of RAW completes with the byte of the view. -/
theorem rawViewReadsTheWireBytes : Obligations.RawViewReadsTheWireBytes := by
  intro i s hi
  have hlt : i < 260 := Nat.lt_succ_of_le hi
  refine ⟨decode_fullRead (g := .raw i) (decide_eq_true hlt), ?_⟩
  rw [← rawByte_toNat, ← zext_eq_ofNat]
  exact readsWord_rdRaw hlt

/-! ## The packet read out and parsed back (R153) -/

/-- Appends that fit leave everything but the window as it was. -/
theorem effectAll_appends_frame {bs : List Byte} {s : State} (h : s.rxlen.toNat + bs.length ≤ Config.rxCap) :
    ∃ m n r, effectAll (bs.map fun b => .wrRxData (zext b)) s = { s with rxbuf := m, rxlen := n, resp := r } := by
  induction bs generalizing s with
  | nil => exact ⟨_, _, _, rfl⟩
  | cons b bs ih =>
    rw [List.length_cons] at h
    have hlt : s.rxlen.toNat < Config.rxCap := by omega
    have hs : (Instr.wrRxData (zext b)).effect s = ({ s with rxbuf := _, rxlen := _ } : State).writeDone :=
      congrArg State.writeDone (if_pos hlt)
    have hlen : ((Instr.wrRxData (zext b)).effect s).rxlen.toNat = s.rxlen.toNat + 1 :=
      (effectAll_appends (bs := [b]) hlt).1
    obtain ⟨m, n, r, he⟩ := ih (s := (Instr.wrRxData (zext b)).effect s) (by omega)
    exact ⟨m, n, r, he.trans (by rw [hs]; rfl)⟩

/-- The packet as it stands on the wire, read through RAW (R151). -/
def wireBytes (u : State) : List Byte := (List.range (5 + u.hdr.len.toNat)).map (rawByte u)

@[simp] theorem wireBytes_length (u : State) : (wireBytes u).length = 5 + u.hdr.len.toNat := by simp [wireBytes]

/-- RX_CLEAR and the appends of the wire bytes leave them in the window, and everything else of the block as it was. -/
theorem effectAll_appends_wireBytes (u : State) :
    ∃ v, effectAll (.rxClear :: (wireBytes u).map fun b => .wrRxData (zext b)) u = v ∧
      v = { u with rxbuf := v.rxbuf, rxlen := v.rxlen, resp := v.resp } ∧
      v.rxlen.toNat = 5 + u.hdr.len.toNat ∧ ∀ k < 5 + u.hdr.len.toNat, rxByte v k = rawByte u k := by
  have hfit : ((Instr.rxClear).effect u).rxlen.toNat + (wireBytes u).length ≤ Config.rxCap := by
    have := u.hdr.len.isLt
    simp [Instr.effect, Config.rxCap]
    omega
  obtain ⟨hn, hbuf⟩ := effectAll_appends hfit
  obtain ⟨m, n, r, he⟩ := effectAll_appends_frame hfit
  rw [he] at hn hbuf
  refine ⟨_, he, rfl, hn.trans (by simp [Instr.effect]), fun k hk => ?_⟩
  have hbuf' : m = u.rxbuf.writeAll 0 (wireBytes u) := hbuf
  show (m.lookup k).getD _ = _
  rw [hbuf', Memory.getD_lookup_writeAll, if_pos (by simpa using hk)]
  simp [wireBytes, hk]

/-- Settles O34: the window holds the wire bytes of the record, whose header is valid and whose length is all there, so
that PARSE gives the record and the payload back. -/
theorem rawReadoutParsesBackToThePacket : Obligations.RawReadoutParsesBackToThePacket := by
  intro s u hu hexp
  have hvalid : validHeader (wireOf u.hdr u.hcrc) = true := by
    obtain ⟨-, rfl⟩ := exec_next_iff.1 hu
    exact validHeader_completeHeader s
  obtain ⟨v, hrun, hframe, hlen, hbytes⟩ := effectAll_appends_wireBytes u
  have hwire : rxWire v = wireOf u.hdr u.hcrc := by
    rw [rxWire, hbytes 0 (by omega), hbytes 1 (by omega), hbytes 2 (by omega), hbytes 3 (by omega), hbytes 4 (by omega)]
    rfl
  have h2 : rxByte v 2 = u.hdr.len := hbytes 2 (by omega)
  have hdec : v.parseDecision = .ok := by
    refine parseDecision_ok (by rwa [hwire]) (by rw [h2, hlen]) ?_
    rw [h2, hframe]
    exact hexp
  have hops : execAll ((.rxClear :: (wireBytes u).map fun b => .wrRxData (zext b)) ++ [.parse]) u =
      .next (v.parseEffect (rxWire v) .ok).writeDone := by
    rw [execAll_of_inMap u (by simp [Instr.inMap]), effectAll_append, hrun, ← hdec]
    rfl
  rw [wireBytes, List.map_map] at hops
  refine ⟨_, hops, rfl, rfl, ?_, ?_, fun k hk => ?_, fun hsnap => ?_⟩
  · exact congrArg hdrOfWire hwire
  · exact (congrArg hcrcOfWire hwire).trans (hcrcOfWire_wireOf _ _)
  · refine (payByte_copyPayload v (rxByte v 2).toNat k).trans ?_
    rw [h2, if_pos hk, hbytes (5 + k) (by omega), Nat.add_comm 5 k]
    exact if_pos hk
  · show v.tovLatest = u.tovSnap
    rw [hframe, hsnap]

end Sys2Proof.Machine
end

section
/-! Proofs: the control and operand operations (R170 to R175). -/

namespace Sys2Proof.Machine

/-- EXPECT's fields in numbers (R172). -/
theorem expectOf_eq_ofNat (d : Word) :
    expectOf d = { len := BitVec.ofNat 8 d.toNat, en := decide (d.toNat / 256 % 2 = 1) } := by
  have hen : d.getLsbD 8 = decide (d.toNat / 256 % 2 = 1) := by
    apply getLsbD_of_toNat
    rcases Nat.mod_two_eq_zero_or_one (d.toNat / 256) with h | h <;> simp [h]
  rw [expectOf, byteOf_zero_eq_ofNat, hen]

/-- Settles O35: each write's target selects it, and EXPECT takes the low byte and bit 8 of the word. -/
theorem nopAndOperandWritesStoreOnlyTheirOperand : Obligations.NopAndOperandWritesStoreOnlyTheirOperand := by
  refine ⟨rfl, fun d s => ⟨⟨?_, ?_, ?_, ?_⟩, ?_⟩⟩
  · exact decode_fullWrite (g := .reg .arg) rfl d
  · exact decode_fullWrite (g := .reg .expect) rfl d
  · exact decode_fullWrite (g := .reg .tovSecIn) rfl d
  · exact decode_fullWrite (g := .reg .tovUsIn) rfl d
  · rw [← expectOf_eq_ofNat]
    exact ⟨_, rfl, rfl, rfl, rfl, rfl⟩

/-- Settles O36: TOV_SET copies the staged pair whole, and STATUS_CLEAR is the model's `Status.clearSticky`. -/
theorem tovSetAndStatusClearWriteOnlyTheirFields : Obligations.TovSetAndStatusClearWriteOnlyTheirFields :=
  ⟨rfl, rfl, fun _ => ⟨_, rfl, rfl⟩⟩

end Sys2Proof.Machine
end

section
/-! Proofs: no operation but a bus error stops the machine (R201). -/

namespace Sys2Proof.Machine

/-- Settles O9: a well-formed operation other than the bus error row has its target in the map, and there `exec` answers
the operation's effect, whatever the state. -/
theorem everyOperationButBusErrorCompletes : Obligations.EveryOperationButBusErrorCompletes := by
  intro i s hwf hne
  have hmap : i.inMap = true := inMap_of_wf hwf hne
  exact ⟨i.effect s, exec_of_inMap s hmap⟩

end Sys2Proof.Machine
end

section
/-! Proofs: the reset input and SOFT_RESET are one register reset (R210). -/

namespace Sys2Proof.Machine

/-- The step that takes the asserted reset input, as a register reset of the block. -/
theorem step_resetAssert {s : State} {rest : List HostEvent} (hp : s.pending = .resetAssert :: rest) :
    step s = .next { s.resetRegisters with pending := rest, inReset := true, resp := none } := by
  rw [step, stepAt, fetch_resetAssert hp]
  rfl

/-- SOFT_RESET always completes, with the register reset of the block. -/
theorem exec_softReset (s : State) : exec .softReset s = .next s.resetRegisters.writeDone :=
  exec_of_inMap s rfl

/-- Settles O38: both are `State.resetRegisters`, and what each adds to it is among the model's own three fields. -/
theorem hardwareResetActsAsSoftReset : Obligations.HardwareResetActsAsSoftReset :=
  fun s _ hp => ⟨_, _, step_resetAssert hp, exec_softReset s, rfl, rfl, rfl⟩

end Sys2Proof.Machine
end
